-- ==== Sys2Proof/Word.lean ====
section
/-! DEFINITION. The values the block computes with: levels, directions, decode modes, phases, statuses and
notification kinds. Their register codes are functions of Machine/Codes.lean. -/

namespace Sys2Proof

/-- A level is one bit: 1 is high, 0 is low (R5). -/
abbrev Level := BitVec 1

/-- A direction is one of {-1, 0, +1} (R5, R50). The 2-bit code 0b10 is not a direction, so the type has
three values (R53 (d)). -/
inductive Direction where
  | neg
  | zero
  | pos
deriving DecidableEq, Repr, Inhabited

/-- The four decode modes that `cfg_mode` holds (R10, R51). -/
inductive Mode where
  | singleEdge
  | lookupTable
  | halfStep
  | fullStep
deriving DecidableEq, Repr, Inhabited

/-- The lifecycle register `phase` (R11). -/
inductive Phase where
  | idle
  | active
deriving DecidableEq, Repr, Inhabited

/-- The statuses INIT and TEARDOWN return (R54). The code 3 is not used. -/
inductive Status where
  | ok
  | configurationError
  | registrationError
deriving DecidableEq, Repr, Inhabited

/-- The four kinds of edge notification (R60): 0 A rising, 1 A falling, 2 B rising, 3 B falling. -/
inductive EdgeKind where
  | aRise
  | aFall
  | bRise
  | bFall
deriving DecidableEq, Repr, Inhabited

/-- The five notification kinds `ev_en` has a bit for (R12, R115). -/
inductive HandlerKind where
  | edge (k : EdgeKind)
  | button
deriving DecidableEq, Repr, Inhabited

end Sys2Proof
end

