-- ==== Sys2Proof/Machine/Codes.lean ====
section
/-! DEFINITION. The register and result codes of the model's enumerations: mode (R51), direction (R50), phase (R11),
status (R54), and the sign extension of a direction code (R50). -/

namespace Sys2Proof

/-- The 2-bit code `cfg_mode` holds (R51). -/
def Mode.code : Mode → BitVec 2
  | .singleEdge => 0
  | .lookupTable => 1
  | .halfStep => 2
  | .fullStep => 3

/-- The mode of a 2-bit code (R51). -/
def Mode.ofCode (c : BitVec 2) : Mode :=
  if c = 0 then .singleEdge
  else if c = 1 then .lookupTable
  else if c = 2 then .halfStep
  else .fullStep

/-- The mode of INIT's 8-bit operand; codes 4 to 255 are unrecognised (R51). -/
def Mode.ofOperand (m : BitVec 8) : Option Mode :=
  if m.toNat ≤ 3 then some (Mode.ofCode (m.extractLsb' 0 2)) else none

/-- A direction as the mathematical integer READ_DIR returns (R50). -/
def Direction.toInt : Direction → Int
  | .neg => -1
  | .zero => 0
  | .pos => 1

/-- The 2-bit two's complement code of a direction register (R50). -/
def Direction.code : Direction → BitVec 2
  | .zero => 0b00
  | .pos => 0b01
  | .neg => 0b11

/-- A direction in a wider word: its code sign-extended to n bits (R50). -/
def Direction.sext (n : Nat) (d : Direction) : BitVec n :=
  d.code.signExtend n

/-- The code of `phase` (R11). -/
def Phase.code : Phase → BitVec 1
  | .idle => 0
  | .active => 1

/-- The status code (R54). -/
def Status.code : Status → BitVec 2
  | .ok => 0
  | .configurationError => 1
  | .registrationError => 2

end Sys2Proof
end

