-- ==== Sys2Proof/Config.lean ====
section
/-! DEFINITION. What an implementation fixes (R4: the OPEN parameters `PIN_W` and `T_W`) and the free values: what the
registers hold after TEARDOWN (93_implementation_defined.md Y1, log 6). -/

namespace Sys2Proof

/-- The OPEN parameters of R4, which a model takes as arguments (D7, D8). The machine's are its state's field `params`,
which no operation writes, so whatever holds of every state holds for every width (log 5). -/
structure Params where
  /-- `PIN_W`, the width of a pin identifier: a name handed to the Sample Source, compared for equality only (R30). A pin
  identifier is a number below 2^PIN_W. -/
  pinW : Nat
  /-- `T_W`, the width of a timestamp and of the delay, unsigned, in abstract ticks (R5). Each is a number below 2^T_W. -/
  tW : Nat
deriving DecidableEq, Repr

/-- The values this spec takes for the OPEN parameters (R4). -/
def Config.params : Params :=
  { pinW := 8, tW := 32 }

/-- A value for each register that holds no defined value after TEARDOWN: every register except `phase` and
`ev_en` (R25, R106, 93_implementation_defined.md Y1). -/
structure TornRegisters where
  cfgPinA : Nat
  cfgPinB : Nat
  cfgBtnPin : Nat
  cfgMode : Mode
  cfgDelay : Nat
  abAB : BitVec 4
  tstate : BitVec 4
  lastDir : Direction
  dir : Direction
  btnOut : Level
  btnLevel : Level
  btnT : Nat
deriving DecidableEq, Repr, Inhabited

/-- The free values (log 6): what the n-th TEARDOWN of a live session leaves in those registers. It has no
body, so nothing can be proved about a value of it. A pin, a time or a delay of it is taken at its register's width. -/
opaque Config.torn : Nat → TornRegisters

end Sys2Proof
end

