-- ==== Sys2Proof/Syntax.lean ====
section
/-! DEFINITION. The instructions (one constructor per row of spec/opcode_table.json), the side-band operands of
R52, and the inputs an agent can present to the block. -/

namespace Sys2Proof

/-- INIT's side-band record with the Sample Source's answers (R52). `mode` is 8 bits, so that unrecognised
codes exist (R51). A pin is taken at PIN_W bits and the delay at T_W bits (log 5).
Bit k of `regOk` answers the registration of bit k of `ev_en` (R52, R102). -/
structure InitOperands where
  pinA : Nat
  pinB : Nat
  btnPin : Nat
  mode : BitVec 8
  delay : Nat
  regOk : BitVec 5
deriving DecidableEq, Repr, Inhabited

/-- The 22 rows of the operation table. The ten operations are those of R46; an edge operation has one row per
decode mode, because its meaning depends on `cfg_mode`, which is part of the decode key (R45, R55).
A level operand is the integer that was read, before `Norm` (R8). -/
inductive Instr where
  | init (c : InitOperands)
  | teardown
  | readDir
  | readBtn (now : Nat)
  | edgeARiseSe (a b : Int)
  | edgeARiseLut (a b : Int)
  | edgeARiseHs (a b : Int)
  | edgeARiseFs (a b : Int)
  | edgeAFallSe (a b : Int)
  | edgeAFallLut (a b : Int)
  | edgeAFallHs (a b : Int)
  | edgeAFallFs (a b : Int)
  | edgeBRiseSe (a b : Int)
  | edgeBRiseLut (a b : Int)
  | edgeBRiseHs (a b : Int)
  | edgeBRiseFs (a b : Int)
  | edgeBFallSe (a b : Int)
  | edgeBFallLut (a b : Int)
  | edgeBFallHs (a b : Int)
  | edgeBFallFs (a b : Int)
  | btnEdge (l : Int) (now : Nat)
  | btnTick (now : Nat)
deriving DecidableEq, Repr

/-- The side-band operands that come with an event word (R45, R52): INIT reads `init`, READ_BTN, BTN_EDGE and
BTN_TICK read `now`, and the other operations read none of them. -/
structure SideBand where
  init : InitOperands
  now : Nat
deriving DecidableEq, Repr, Inhabited

/-- One operation as an agent applies it (log 2): an event word with its side-band operands (R45), or a handler
invocation of the Sample Source with the readings as it read them, before `Norm` (R8, R118). -/
inductive Input where
  | event (word : BitVec 8) (side : SideBand)
  | edgeNotice (k : EdgeKind) (a b : Int)
  | buttonNotice (l : Int) (now : Nat)
deriving DecidableEq, Repr

/-- Why the decoder rejects an event word (R53 (a), (b)). -/
inductive Reject where
  /-- The operation code is 0xA to 0xF. -/
  | reservedOperation (op : BitVec 4)
  /-- A reserved argument bit is 1. -/
  | reservedArgument (word : BitVec 8)
deriving DecidableEq, Repr

/-- What the decoder answers. -/
inductive Decoded where
  | instr (i : Instr)
  | rejected (r : Reject)
deriving DecidableEq, Repr

end Sys2Proof
end

