-- ==== Sys2Proof/Machine/Operands.lean ====
section
/-! DEFINITION. Operand forms: level normalisation (R8), the level as an operand of a one-bit port, the lookup index
(R48), the column index (R49), pins and times at their widths (R4), the elapsed time (R57 (d)) and the mask of the
handlers a session wants (R12). -/

namespace Sys2Proof

/-- `Norm` (R8): 0 when `v <= 0`, 1 when `v >= 1`. -/
def normLevel (v : Int) : Level :=
  if 1 ≤ v then 1#1 else 0#1

/-- The reading a one-bit port delivers: the integer 0 or 1, on which `Norm` is the identity (R8). -/
def ofPort (l : Level) : Int :=
  (l.toNat : Int)

/-- `idx = {prevA, prevB, curA, curB}` (R48): the current reading left in `abAB[1:0]` becomes the previous one. -/
def lookupIndex (abAB : BitVec 4) (a b : Level) : BitVec 4 :=
  abAB.extractLsb' 0 2 ++ a ++ b

/-- `col = {a, b}` (R49): A is the more significant bit (R34, 90_conflicts.md C1). -/
def columnIndex (a b : Level) : BitVec 2 :=
  a ++ b

/-- `PIN_NONE` = 2^PIN_W - 1, the sentinel for "no button attached" and "no pin" (R4). -/
def Params.pinNone (p : Params) : Nat :=
  2 ^ p.pinW - 1

/-- A pin operand at PIN_W bits (R4, R52): on a pin identifier it is the identity. -/
def Params.pin (p : Params) (v : Nat) : Nat :=
  v % 2 ^ p.pinW

/-- A time operand at T_W bits (R4, R52): on a timestamp it is the identity. -/
def Params.time (p : Params) (v : Nat) : Nat :=
  v % 2 ^ p.tW

/-- INIT's operands at their widths (R52). -/
def InitOperands.atWidths (c : InitOperands) (p : Params) : InitOperands :=
  { c with pinA := p.pin c.pinA, pinB := p.pin c.pinB, btnPin := p.pin c.btnPin, delay := p.time c.delay }

/-- The pin on which INIT registers a notification kind (R102). -/
def InitOperands.pinOf (c : InitOperands) : HandlerKind → Nat
  | .edge .aRise => c.pinA
  | .edge .aFall => c.pinA
  | .edge .bRise => c.pinB
  | .edge .bFall => c.pinB
  | .button => c.btnPin

/-- `now -_T t` = `(now - t) mod 2^T_W` (R5, R57 (d)): the difference of the integers, reduced to T_W bits. -/
def Params.elapsed (p : Params) (now t : Nat) : Nat :=
  (((now : Int) - (t : Int)) % (2 ^ p.tW : Nat)).toNat

/-- The bit of `ev_en` and of `reg_ok` that stands for a notification kind (R12, R52). -/
def HandlerKind.bit : HandlerKind → Nat
  | .edge .aRise => 0
  | .edge .aFall => 1
  | .edge .bRise => 2
  | .edge .bFall => 3
  | .button => 4

/-- `want` (R100, R12): the handlers a session of this mode registers, with a button or without. -/
def wantedHandlers (mode : Mode) (button : Bool) : BitVec 5 :=
  (if mode = .singleEdge then 0b00001#5 else 0b01111#5) ||| (if button then 0b10000#5 else 0b00000#5)

end Sys2Proof
end

