-- ==== Sys2Proof/WellFormed.lean ====
section
/-! DEFINITION. Well-formed instructions: those an event word with side-band operands can carry. A level operand of an
event word is one bit (R45), so it is 0 or 1; a pin has PIN_W bits, a time or delay T_W bits (R52). Any other reading
has a meaning (R8, R113) but no event word. -/

namespace Sys2Proof

/-- A level operand that has an event-word bit: 0 or 1. -/
def levelWf (v : Int) : Bool :=
  v == 0 || v == 1

/-- Both level operands of an edge operation fit format E (R45). -/
def levelsWf (a b : Int) : Bool :=
  levelWf a && levelWf b

/-- A pin operand of PIN_W bits (R52). -/
def pinWf (p : Params) (v : Nat) : Bool :=
  decide (v < 2 ^ p.pinW)

/-- A time or delay operand of T_W bits (R52). -/
def timeWf (p : Params) (v : Nat) : Bool :=
  decide (v < 2 ^ p.tW)

/-- INIT's operands have their R52 widths. Unrecognised mode codes are well-formed: their meaning is ConfigurationError
(R51). -/
def InitOperands.wf (p : Params) (c : InitOperands) : Bool :=
  pinWf p c.pinA && pinWf p c.pinB && pinWf p c.btnPin && timeWf p c.delay

/-- The side-band operands have their R52 widths. -/
def SideBand.wf (p : Params) (side : SideBand) : Bool :=
  side.init.wf p && timeWf p side.now

/-- The instruction has an event word and operands of the widths `p`. -/
def Instr.wf (p : Params) : Instr → Bool
  | .init c => c.wf p
  | .teardown => true
  | .readDir => true
  | .readBtn now => timeWf p now
  | .edgeARiseSe a b => levelsWf a b
  | .edgeARiseLut a b => levelsWf a b
  | .edgeARiseHs a b => levelsWf a b
  | .edgeARiseFs a b => levelsWf a b
  | .edgeAFallSe a b => levelsWf a b
  | .edgeAFallLut a b => levelsWf a b
  | .edgeAFallHs a b => levelsWf a b
  | .edgeAFallFs a b => levelsWf a b
  | .edgeBRiseSe a b => levelsWf a b
  | .edgeBRiseLut a b => levelsWf a b
  | .edgeBRiseHs a b => levelsWf a b
  | .edgeBRiseFs a b => levelsWf a b
  | .edgeBFallSe a b => levelsWf a b
  | .edgeBFallLut a b => levelsWf a b
  | .edgeBFallHs a b => levelsWf a b
  | .edgeBFallFs a b => levelsWf a b
  | .btnEdge l now => levelWf l && timeWf p now
  | .btnTick now => timeWf p now

end Sys2Proof
end

