-- ==== Sys2Proof/Decode.lean ====
section
/-! DEFINITION. The decoder, total on every decode key, and the encoder. The key is `K = {cfg_mode[1:0], W[7:0]}`,
10 bits; `cfg_mode` is state, not part of the event (R45, R55). -/

namespace Sys2Proof

/-- The row of an edge operation of kind `k` in mode `m` (R55: four rows for each edge operation). -/
def edgeInstr (k : EdgeKind) (m : Mode) (a b : Int) : Instr :=
  match k, m with
  | .aRise, .singleEdge => .edgeARiseSe a b
  | .aRise, .lookupTable => .edgeARiseLut a b
  | .aRise, .halfStep => .edgeARiseHs a b
  | .aRise, .fullStep => .edgeARiseFs a b
  | .aFall, .singleEdge => .edgeAFallSe a b
  | .aFall, .lookupTable => .edgeAFallLut a b
  | .aFall, .halfStep => .edgeAFallHs a b
  | .aFall, .fullStep => .edgeAFallFs a b
  | .bRise, .singleEdge => .edgeBRiseSe a b
  | .bRise, .lookupTable => .edgeBRiseLut a b
  | .bRise, .halfStep => .edgeBRiseHs a b
  | .bRise, .fullStep => .edgeBRiseFs a b
  | .bFall, .singleEdge => .edgeBFallSe a b
  | .bFall, .lookupTable => .edgeBFallLut a b
  | .bFall, .halfStep => .edgeBFallHs a b
  | .bFall, .fullStep => .edgeBFallFs a b

/-- The operation code `W[7:4]` (R45). -/
def opField (w : BitVec 8) : BitVec 4 := w.extractLsb' 4 4

/-- The argument `W[3:0]` (R45). -/
def argField (w : BitVec 8) : BitVec 4 := w.extractLsb' 0 4

/-- Format N: `arg = 0000`, every bit reserved (R45, R53). -/
def decodeN (w : BitVec 8) (i : Instr) : Decoded :=
  if argField w = 0 then .instr i else .rejected (.reservedArgument w)

/-- Format E: `arg = {0, 0, a, b}` (R45); `W[3:2]` is reserved (R53). -/
def decodeE (m : Mode) (k : EdgeKind) (w : BitVec 8) : Decoded :=
  if w.extractLsb' 2 2 = 0 then
    .instr (edgeInstr k m (ofPort (w.extractLsb' 1 1)) (ofPort (w.extractLsb' 0 1)))
  else .rejected (.reservedArgument w)

/-- Format B: `arg = {0, 0, 0, l}` (R45); `W[3:1]` is reserved (R53). -/
def decodeB (w : BitVec 8) (now : Nat) : Decoded :=
  if w.extractLsb' 1 3 = 0 then .instr (.btnEdge (ofPort (w.extractLsb' 0 1)) now)
  else .rejected (.reservedArgument w)

/-- An event word in mode `m` with its side-band operands (R45, R46, R55). The codes 0xA to 0xF are reserved
(R53 (a)). -/
def decodeWord (m : Mode) (w : BitVec 8) (side : SideBand) : Decoded :=
  match (opField w).toNat with
  | 0x0 => decodeN w (.init side.init)
  | 0x1 => decodeN w .teardown
  | 0x2 => decodeN w .readDir
  | 0x3 => decodeN w (.readBtn side.now)
  | 0x4 => decodeE m .aRise w
  | 0x5 => decodeE m .aFall w
  | 0x6 => decodeE m .bRise w
  | 0x7 => decodeE m .bFall w
  | 0x8 => decodeB w side.now
  | 0x9 => decodeN w (.btnTick side.now)
  | _ => .rejected (.reservedOperation (opField w))

/-- The mode bits of a key, `K[9:8]` (R45). -/
def keyMode (k : BitVec 10) : Mode := Mode.ofCode (k.extractLsb' 8 2)

/-- The event word of a key, `K[7:0]` (R45). -/
def keyWord (k : BitVec 10) : BitVec 8 := k.extractLsb' 0 8

/-- The decoder on the full decode key `K` (R45). -/
def decode (k : BitVec 10) (side : SideBand) : Decoded :=
  decodeWord (keyMode k) (keyWord k) side

/-- The key of an event word presented while `cfg_mode` is `m` (R45). -/
def eventKey (m : Mode) (w : BitVec 8) : BitVec 10 :=
  m.code ++ w

/-- An input of the block while `cfg_mode` is `m`: an event word is decoded by its key; a handler invocation
names its operation and carries its readings (R118), so it needs no decoding but the mode's row. -/
def decodeInput (m : Mode) (x : Input) : Decoded :=
  match x with
  | .event w side => decode (eventKey m w) side
  | .edgeNotice k a b => .instr (edgeInstr k m a b)
  | .buttonNotice l now => .instr (.btnEdge l now)

/-- Side-band operands that are all zero. -/
def SideBand.zeros : SideBand :=
  { init := { pinA := 0, pinB := 0, btnPin := 0, mode := 0, delay := 0, regOk := 0 }, now := 0 }

/-- The instruction of a table word: bits 9 to 0 are the key, no bit stands above them, and the operands the
table gives no bits (the side-band operands) are zero. -/
def decodeTableWord (nbits w : Nat) : Option Instr :=
  let k := w % 2 ^ nbits
  if k < 2 ^ 10 then
    match decode (BitVec.ofNat 10 k) SideBand.zeros with
    | .instr i => some i
    | .rejected _ => none
  else none

/-- A format E word: `{op, 0, 0, a, b}` (R45). -/
def wordE (op : BitVec 4) (a b : Int) : BitVec 8 :=
  op ++ 0b00#2 ++ normLevel a ++ normLevel b

/-- A format B word: `{op, 0, 0, 0, l}` (R45). -/
def wordB (op : BitVec 4) (l : Int) : BitVec 8 :=
  op ++ 0b000#3 ++ normLevel l

/-- A format N word: `{op, 0000}` (R45). -/
def wordN (op : BitVec 4) : BitVec 8 :=
  op ++ 0b0000#4

/-- The event word of an instruction (R45, R46). -/
def Instr.word : Instr → BitVec 8
  | .init _ => wordN 0x0
  | .teardown => wordN 0x1
  | .readDir => wordN 0x2
  | .readBtn _ => wordN 0x3
  | .edgeARiseSe a b => wordE 0x4 a b
  | .edgeARiseLut a b => wordE 0x4 a b
  | .edgeARiseHs a b => wordE 0x4 a b
  | .edgeARiseFs a b => wordE 0x4 a b
  | .edgeAFallSe a b => wordE 0x5 a b
  | .edgeAFallLut a b => wordE 0x5 a b
  | .edgeAFallHs a b => wordE 0x5 a b
  | .edgeAFallFs a b => wordE 0x5 a b
  | .edgeBRiseSe a b => wordE 0x6 a b
  | .edgeBRiseLut a b => wordE 0x6 a b
  | .edgeBRiseHs a b => wordE 0x6 a b
  | .edgeBRiseFs a b => wordE 0x6 a b
  | .edgeBFallSe a b => wordE 0x7 a b
  | .edgeBFallLut a b => wordE 0x7 a b
  | .edgeBFallHs a b => wordE 0x7 a b
  | .edgeBFallFs a b => wordE 0x7 a b
  | .btnEdge l _ => wordB 0x8 l
  | .btnTick _ => wordN 0x9

/-- The mode bits of an instruction's key: an edge row fixes them, the six other rows have the don't-care field
`m` there, for which `m` is used (R55). -/
def Instr.modeBits (m : Mode) : Instr → Mode
  | .init _ => m
  | .teardown => m
  | .readDir => m
  | .readBtn _ => m
  | .edgeARiseSe _ _ => .singleEdge
  | .edgeARiseLut _ _ => .lookupTable
  | .edgeARiseHs _ _ => .halfStep
  | .edgeARiseFs _ _ => .fullStep
  | .edgeAFallSe _ _ => .singleEdge
  | .edgeAFallLut _ _ => .lookupTable
  | .edgeAFallHs _ _ => .halfStep
  | .edgeAFallFs _ _ => .fullStep
  | .edgeBRiseSe _ _ => .singleEdge
  | .edgeBRiseLut _ _ => .lookupTable
  | .edgeBRiseHs _ _ => .halfStep
  | .edgeBRiseFs _ _ => .fullStep
  | .edgeBFallSe _ _ => .singleEdge
  | .edgeBFallLut _ _ => .lookupTable
  | .edgeBFallHs _ _ => .halfStep
  | .edgeBFallFs _ _ => .fullStep
  | .btnEdge _ _ => m
  | .btnTick _ => m

/-- The side-band operands an instruction carries (R52); those it does not read are zero. -/
def Instr.side : Instr → SideBand
  | .init c => { SideBand.zeros with init := c }
  | .readBtn now => { SideBand.zeros with now := now }
  | .btnEdge _ now => { SideBand.zeros with now := now }
  | .btnTick now => { SideBand.zeros with now := now }
  | .teardown => SideBand.zeros
  | .readDir => SideBand.zeros
  | .edgeARiseSe _ _ => SideBand.zeros
  | .edgeARiseLut _ _ => SideBand.zeros
  | .edgeARiseHs _ _ => SideBand.zeros
  | .edgeARiseFs _ _ => SideBand.zeros
  | .edgeAFallSe _ _ => SideBand.zeros
  | .edgeAFallLut _ _ => SideBand.zeros
  | .edgeAFallHs _ _ => SideBand.zeros
  | .edgeAFallFs _ _ => SideBand.zeros
  | .edgeBRiseSe _ _ => SideBand.zeros
  | .edgeBRiseLut _ _ => SideBand.zeros
  | .edgeBRiseHs _ _ => SideBand.zeros
  | .edgeBRiseFs _ _ => SideBand.zeros
  | .edgeBFallSe _ _ => SideBand.zeros
  | .edgeBFallLut _ _ => SideBand.zeros
  | .edgeBFallHs _ _ => SideBand.zeros
  | .edgeBFallFs _ _ => SideBand.zeros

/-- The key and the side-band operands of an instruction; `m` fills the don't-care mode bits (R45, R52, R55). -/
def encode (m : Mode) (i : Instr) : BitVec 10 × SideBand :=
  (eventKey (i.modeBits m) i.word, i.side)

end Sys2Proof
end

