-- ==== Sys2Proof/Machine/State.lean ====
section
/-! DEFINITION. The state: every register of R26, and the model's own fields (the operations still to be applied, what
the last operation returned and asked of the Sample Source, and the counter of free values), with the machine's parameters. The
reasons a step can stop, and the state after power-on. -/

namespace Sys2Proof.Machine

/-- What an operation returns (R6, R46): a status, a direction, a level, or nothing. -/
inductive Result where
  | none
  | status (v : Status)
  | direction (d : Direction)
  | level (l : Level)
deriving DecidableEq, Repr

/-- One handler installed, or to be installed, with the Sample Source: its pin and its kind (R102). The kind
`button` stands for both edges of the pin. -/
structure Registration where
  pin : Nat
  kind : HandlerKind
deriving DecidableEq, Repr

/-- What the block asks of the Sample Source (R122). `readLevel` is not here: its answers are operands of the
handler operations (R118). -/
inductive SourceCall where
  | onEdge (r : Registration)
  /-- `cancel(RegistrationHandle)`. The spec gives a handle no form and the block no register for one. DESIGN CHOICE
  (log 18): a handle is named by its notification kind, that is by its bit of `ev_en`, of which a session has one each. -/
  | cancel (handle : HandlerKind)
deriving DecidableEq, Repr

/-- The machine's state. No memory: the block has none (R30). -/
structure State where
  /-- The OPEN parameters of R4, an argument of the machine: no operation writes them (log 5). -/
  params : Params
  /-- `phase` (R11). -/
  phase : Phase
  /-- `ev_en` (R12). -/
  evEn : BitVec 5
  /-- `cfg_pinA` (R10). -/
  cfgPinA : Nat
  /-- `cfg_pinB` (R10). -/
  cfgPinB : Nat
  /-- `cfg_btnPin` (R10). -/
  cfgBtnPin : Nat
  /-- `cfg_mode` (R10). -/
  cfgMode : Mode
  /-- `cfg_delay` (R10). -/
  cfgDelay : Nat
  /-- `abAB` (R13). -/
  abAB : BitVec 4
  /-- `tstate` (R14). -/
  tstate : BitVec 4
  /-- `last_dir` (R15). -/
  lastDir : Direction
  /-- `dir` (R16). -/
  dir : Direction
  /-- `btn_out` (R17). -/
  btnOut : Level
  /-- `btn_level` (R18). -/
  btnLevel : Level
  /-- `btn_t` (R19). -/
  btnT : Nat
  /-- The operations the agents apply next, the first first. The model's own field (log 1). -/
  inbox : List Input
  /-- What the last operation returned. The model's own field (log 3). -/
  result : Result
  /-- What the last operation asked of the Sample Source. The model's own field (log 3). -/
  calls : List SourceCall
  /-- How many free values have been drawn. The model's own field (log 6). -/
  draws : Nat
deriving DecidableEq, Repr

/-- Nothing in the block is a fault: no situation makes it trap (93_implementation_defined.md section 4). The type
has no constructor, so no step faults. -/
inductive Fault where
deriving DecidableEq, Repr

/-- The situations the spec gives no meaning (93_implementation_defined.md section 2, log 7). Every one is safe:
the model stops and proves nothing about what follows. -/
inductive Refusal where
  /-- An instruction that has no meaning in the model yet. Raised by no arm of this model. Safe. -/
  | notModelled (mnemonic : String)
  /-- X1: INIT while `phase = ACTIVE` (R100, R107). Raised by INIT. Safe. -/
  | initWhileActive
  /-- X2: READ_DIR while `phase = IDLE` (R104, R107). Raised by READ_DIR. Safe. -/
  | readDirWhileIdle
  /-- X3: READ_BTN while `phase = IDLE` (R105, R107). Raised by READ_BTN. Safe. -/
  | readBtnWhileIdle
  /-- X4: an event word whose operation code is 0xA to 0xF (R53 (a)). Raised by the step. Safe. -/
  | reservedOperation (op : BitVec 4)
  /-- X5: an event word with a reserved argument bit set (R53 (b)). Raised by the step. Safe. -/
  | reservedArgument (word : BitVec 8)
  /-- X6: an accepted trigger with `tstate` outside the table of its mode (R35). Raised by the HalfStep and FullStep
  rows of the edge operations. No session reaches it. Safe. -/
  | rowOutOfRange
deriving DecidableEq, Repr

/-- The machine right after power-on: `phase = IDLE`, `ev_en = 0` and every other register 0 (R130, R26). Nothing is
waiting in the inbox and nothing has been returned or drawn (DESIGN CHOICE, log 1, log 3, log 6). The parameters have the
spec's values (R4, log 5). -/
def State.reset : State :=
  { params := Config.params
    phase := .idle
    evEn := 0
    cfgPinA := 0
    cfgPinB := 0
    cfgBtnPin := 0
    cfgMode := .singleEdge
    cfgDelay := 0
    abAB := 0
    tstate := 0
    lastDir := .zero
    dir := .zero
    btnOut := 0
    btnLevel := 0
    btnT := 0
    inbox := []
    result := .none
    calls := []
    draws := 0 }

end Sys2Proof.Machine
end

