-- ==== Sys2Proof/Machine/Flags.lean ====
section
/-! DEFINITION. What acts as flags (R22): the emission flag of a transition-table entry (R47) and the result-pending
flag `dir != 0`. -/

namespace Sys2Proof.Machine

/-- The emission flag `e[7:4]` (R47): 0x1 is +1, 0x2 is -1, every other value is 0. -/
def entryDirection (e : BitVec 8) : Direction :=
  if e.extractLsb' 4 4 = 0x1 then .pos
  else if e.extractLsb' 4 4 = 0x2 then .neg
  else .zero

/-- The next row `e[3:0]` (R47). -/
def entryNextRow (e : BitVec 8) : BitVec 4 :=
  e.extractLsb' 0 4

/-- The sticky result-pending flag, `dir != 0` (R22 (b)). -/
def resultPending (s : State) : Bool :=
  s.dir ≠ .zero

end Sys2Proof.Machine
end

