-- ==== Sys2Proof/Machine/Tables.lean ====
section
/-! DEFINITION. The three constant tables (R30 to R33), their reads (`RomRead`, R35) and the SingleEdge sign constants
(R4, R71). No operation writes a table. -/

namespace Sys2Proof.Machine

/-- `SE_DIR_B_HIGH` (R4, R71). -/
def seDirBHigh : Direction := .neg

/-- `SE_DIR_B_LOW` (R4, R71). -/
def seDirBLow : Direction := .pos

/-- The 16 entries of `LUT`, index 0 first (R31). -/
def lutEntries : List Direction :=
  [.zero, .neg, .pos, .zero, .pos, .zero, .zero, .neg, .neg, .zero, .zero, .pos, .zero, .pos, .neg, .zero]

/-- `RomRead(LUT, i)` (R31): defined for every 4-bit index (R35). -/
def romReadLut (i : BitVec 4) : Direction :=
  lutEntries.getD i.toNat .zero

/-- The rows of `HS`, row 0 first, each with its columns AB = 00, 01, 10, 11 (R32). -/
def hsRows : List (List (BitVec 8)) :=
  [ [0x03, 0x02, 0x01, 0x00],
    [0x23, 0x00, 0x01, 0x00],
    [0x13, 0x02, 0x00, 0x00],
    [0x03, 0x05, 0x04, 0x00],
    [0x03, 0x03, 0x04, 0x10],
    [0x03, 0x05, 0x03, 0x20] ]

/-- The rows of `FS`, row 0 first, each with its columns AB = 00, 01, 10, 11 (R33). -/
def fsRows : List (List (BitVec 8)) :=
  [ [0x00, 0x02, 0x04, 0x00],
    [0x03, 0x00, 0x01, 0x10],
    [0x03, 0x02, 0x00, 0x00],
    [0x03, 0x02, 0x01, 0x00],
    [0x06, 0x00, 0x04, 0x00],
    [0x06, 0x05, 0x00, 0x20],
    [0x06, 0x05, 0x04, 0x00] ]

/-- The entry of row `r` and column `c`, or none where the table has no such row (R35). -/
def romReadRow (rows : List (List (BitVec 8))) (r : BitVec 4) (c : BitVec 2) : Option (BitVec 8) :=
  rows[r.toNat]?.bind fun row => row[c.toNat]?

/-- `RomRead(HS, r, c)` (R32). -/
def romReadHs (r : BitVec 4) (c : BitVec 2) : Option (BitVec 8) :=
  romReadRow hsRows r c

/-- `RomRead(FS, r, c)` (R33). -/
def romReadFs (r : BitVec 4) (c : BitVec 2) : Option (BitVec 8) :=
  romReadRow fsRows r c

end Sys2Proof.Machine
end

