-- ==== Sys2Proof/Machine/Ops.lean ====
section
/-! DEFINITION. The shared operations: how an operation ends (R6: return, ignore, raise), acceptance (R60), write-back
(R63), the trigger shared by all sixteen edge rows, `Settle` and `Debounced` (R91, R93), opening and closing a
session (R100, R106), the calls to the Sample Source (R102, R122), and taking an input from the inbox. -/

namespace Sys2Proof.Machine

/-- What a step answers. -/
abbrev Answer := Host.Outcome State Fault Refusal

/-- The operation ends with result `r`, having made the calls `cs` to the Sample Source (R6 `return v`, R122). -/
def State.finish (s : State) (r : Result) (cs : List SourceCall) : State :=
  { s with result := r, calls := cs }

/-- `ignore` (R6): every register unchanged and no result. -/
def State.ignore (s : State) : State :=
  s.finish .none []

/-- `raise <Error>` (R6): the operation ends at that point, writes no register, and returns the error's status
(R110, R111). This is the block's one way of taking an error; nothing is saved and nothing is switched (R118),
so there is nothing to return from (R119). -/
def State.raise (s : State) (e : Status) (cs : List SourceCall) : State :=
  s.finish (.status e) cs

/-- A notification kind is accepted when `phase = ACTIVE` and its bit of `ev_en` is 1 (R60, R90). -/
def State.accepts (s : State) (k : HandlerKind) : Bool :=
  s.phase == .active && s.evEn.getLsbD k.bit

/-- `abAB <- v` (R63). -/
def State.setAbAB (s : State) (v : BitVec 4) : State :=
  { s with abAB := v }

/-- `tstate <- v` (R63). -/
def State.setTstate (s : State) (v : BitVec 4) : State :=
  { s with tstate := v }

/-- The write-back common to the four modes (R63): `last_dir <- d; if d != 0 then dir <- d`. -/
def State.writeBack (s : State) (d : Direction) : State :=
  { s with lastDir := d, dir := if d = .zero then s.dir else d }

/-- An edge operation of kind `k` (R65 to R68): a trigger when accepted, else ignored (R60). `dec` is the decode of
the row's mode (R62): it gives the direction and the state with the new decoder register, or nothing where the
transition table has no row `tstate` (R35). -/
def trigger (k : EdgeKind) (dec : State → Option (Direction × State)) (s : State) : Answer :=
  if s.accepts (.edge k) then
    match dec s with
    | some (d, s') => .next ((s'.writeBack d).finish .none [])
    | none => .refused .rowOutOfRange
  else .next s.ignore

/-- `Settle`'s condition (R91): the recorded level differs from the debounced level and has stood for at least the
delay; the comparison is unsigned and inclusive. -/
def State.settles (s : State) (now : Nat) : Bool :=
  s.btnLevel ≠ s.btnOut && decide (s.cfgDelay ≤ s.params.elapsed now s.btnT)

/-- `Settle(now)` (R91). -/
def State.settle (s : State) (now : Nat) : State :=
  { s with btnOut := if s.settles now then s.btnLevel else s.btnOut }

/-- `Debounced(now)` (R93): a pure function of the registers and `now`. -/
def State.debounced (s : State) (now : Nat) : Level :=
  if s.settles now then s.btnLevel else s.btnOut

/-- `btn_level <- l; btn_t <- now` (R90); `btn_t` holds T_W bits (R19). -/
def State.recordButton (s : State) (l : Level) (now : Nat) : State :=
  { s with btnLevel := l, btnT := s.params.time now }

/-- `dir <- 0` (R104). -/
def State.clearDir (s : State) : State :=
  { s with dir := .zero }

/-- A button is attached: `cfg_btnPin != PIN_NONE` (R92, R94, R105). -/
def State.hasButton (s : State) : Bool :=
  s.cfgBtnPin != s.params.pinNone

/-- The notification kinds of a mask, in the order of its bits (R12, R102: one handler per bit). The order is a DESIGN
CHOICE (log 4). -/
def handlerKinds (mask : BitVec 5) : List HandlerKind :=
  [.edge .aRise, .edge .aFall, .edge .bRise, .edge .bFall, .button].filter fun k => mask.getLsbD k.bit

/-- The handlers INIT asks for under a mask (R102). -/
def registrations (mask : BitVec 5) (c : InitOperands) : List Registration :=
  (handlerKinds mask).map fun k => ⟨c.pinOf k, k⟩

/-- The requests to cancel the handlers of a mask (R102, R106), each by its notification kind (DESIGN CHOICE, log 18). -/
def cancellations (mask : BitVec 5) : List SourceCall :=
  (handlerKinds mask).map .cancel

/-- The conditions (a) to (c) of R101 on the pins of INIT. -/
def pinsCollide (c : InitOperands) (pinNone : Nat) : Bool :=
  c.pinA == pinNone || c.pinB == pinNone || c.pinA == c.pinB
    || (c.btnPin != pinNone && (c.btnPin == c.pinA || c.btnPin == c.pinB))

/-- INIT's step 3 (R100, R103): the configuration from the operands, every runtime register zeroed, `ev_en <- want`,
`phase <- ACTIVE`. -/
def State.openSession (s : State) (c : InitOperands) (m : Mode) (want : BitVec 5) : State :=
  { s with
    phase := .active
    evEn := want
    cfgPinA := c.pinA
    cfgPinB := c.pinB
    cfgBtnPin := c.btnPin
    cfgMode := m
    cfgDelay := c.delay
    abAB := 0
    tstate := 0
    lastDir := .zero
    dir := .zero
    btnOut := 0
    btnLevel := 0
    btnT := 0 }

/-- The registers other than `phase` and `ev_en` take values that nothing defines (R25, R106,
93_implementation_defined.md Y1): a free value at the register's width (log 6). -/
def State.tear (s : State) : State :=
  let f := Config.torn s.draws
  { s with
    cfgPinA := s.params.pin f.cfgPinA
    cfgPinB := s.params.pin f.cfgPinB
    cfgBtnPin := s.params.pin f.cfgBtnPin
    cfgMode := f.cfgMode
    cfgDelay := s.params.time f.cfgDelay
    abAB := f.abAB
    tstate := f.tstate
    lastDir := f.lastDir
    dir := f.dir
    btnOut := f.btnOut
    btnLevel := f.btnLevel
    btnT := s.params.time f.btnT
    draws := s.draws + 1 }

/-- `ev_en <- 0; phase <- IDLE` (R106). -/
def State.closeSession (s : State) : State :=
  { s with phase := .idle, evEn := 0 }

/-- The refusal of an event word the decoder rejects (R53). -/
def refusalOf : Reject → Refusal
  | .reservedOperation op => .reservedOperation op
  | .reservedArgument w => .reservedArgument w

/-- The next operation an agent applies, and the state without it; none when no agent applies one (R7, log 1). -/
def State.takeInput (s : State) : Option (Input × State) :=
  match s.inbox with
  | [] => none
  | x :: rest => some (x, { s with inbox := rest })

/-- A decode key placed where the next step takes its operation (log 11): its mode bits are `cfg_mode`, which is
state (R45), and its event word comes first in the inbox, with side-band operands of zeros. -/
def State.placeKey (s : State) (k : BitVec 10) : State :=
  { s with cfgMode := keyMode k, inbox := .event (keyWord k) SideBand.zeros :: s.inbox }

end Sys2Proof.Machine
end

