-- ==== Sys2Proof/Machine/Button.lean ====
section
/-! DEFINITION. The button debouncer's operations BTN_EDGE and BTN_TICK (R90, R92, R94). -/

namespace Sys2Proof.Machine

/-- BTN_EDGE (R90): close out the level that stood until now, then record the new level and the time. -/
def execBtnEdge (l : Int) (now : Nat) (s : State) : Answer :=
  if s.accepts .button then
    .next (((s.settle now).recordButton (normLevel l) now).finish .none [])
  else .next s.ignore

/-- BTN_TICK (R92): accepted when `phase = ACTIVE` and a button is attached, else ignored. -/
def execBtnTick (now : Nat) (s : State) : Answer :=
  if s.phase = .active ∧ s.hasButton then
    .next ((s.settle now).finish .none [])
  else .next s.ignore

end Sys2Proof.Machine
end

