-- ==== Sys2Proof/Machine/FullStep.lean ====
section
/-! DEFINITION. The mode FullStep (R85 to R89) and its four rows. -/

namespace Sys2Proof.Machine

/-- `DecodeFS(tstate, a, b)` (R85): the direction and the new `tstate`, or none where `FS` has no row `tstate` (R35).
The mask `tstate & 0x0F` is the identity on 4 bits (90_conflicts.md C5). -/
def decodeFs (tstate : BitVec 4) (a b : Level) : Option (Direction × BitVec 4) :=
  (romReadFs (tstate &&& 0x0F) (columnIndex a b)).map fun e => (entryDirection e, entryNextRow e)

/-- The FullStep case of R62 and R63. -/
def runFs (a b : Int) (s : State) : Option (Direction × State) :=
  (decodeFs s.tstate (normLevel a) (normLevel b)).map fun r => (r.1, s.setTstate r.2)

/-- EDGE_A_RISE.FS (R65, R85). -/
def execEdgeARiseFs (a b : Int) (s : State) : Answer :=
  trigger .aRise (runFs a b) s

/-- EDGE_A_FALL.FS (R66, R85). -/
def execEdgeAFallFs (a b : Int) (s : State) : Answer :=
  trigger .aFall (runFs a b) s

/-- EDGE_B_RISE.FS (R67, R85). -/
def execEdgeBRiseFs (a b : Int) (s : State) : Answer :=
  trigger .bRise (runFs a b) s

/-- EDGE_B_FALL.FS (R68, R85). -/
def execEdgeBFallFs (a b : Int) (s : State) : Answer :=
  trigger .bFall (runFs a b) s

end Sys2Proof.Machine
end

