-- ==== Sys2Proof/Machine/HalfStep.lean ====
section
/-! DEFINITION. The mode HalfStep (R80 to R84) and its four rows. -/

namespace Sys2Proof.Machine

/-- `DecodeHS(tstate, a, b)` (R80): the direction and the new `tstate`, or none where `HS` has no row `tstate` (R35).
The mask `tstate & 0x0F` is the identity on 4 bits (90_conflicts.md C5). -/
def decodeHs (tstate : BitVec 4) (a b : Level) : Option (Direction × BitVec 4) :=
  (romReadHs (tstate &&& 0x0F) (columnIndex a b)).map fun e => (entryDirection e, entryNextRow e)

/-- The HalfStep case of R62 and R63. -/
def runHs (a b : Int) (s : State) : Option (Direction × State) :=
  (decodeHs s.tstate (normLevel a) (normLevel b)).map fun r => (r.1, s.setTstate r.2)

/-- EDGE_A_RISE.HS (R65, R80). -/
def execEdgeARiseHs (a b : Int) (s : State) : Answer :=
  trigger .aRise (runHs a b) s

/-- EDGE_A_FALL.HS (R66, R80). -/
def execEdgeAFallHs (a b : Int) (s : State) : Answer :=
  trigger .aFall (runHs a b) s

/-- EDGE_B_RISE.HS (R67, R80). -/
def execEdgeBRiseHs (a b : Int) (s : State) : Answer :=
  trigger .bRise (runHs a b) s

/-- EDGE_B_FALL.HS (R68, R80). -/
def execEdgeBFallHs (a b : Int) (s : State) : Answer :=
  trigger .bFall (runHs a b) s

end Sys2Proof.Machine
end

