-- ==== Sys2Proof/Machine/LookupTable.lean ====
section
/-! DEFINITION. The mode LookupTable (R75 to R79) and its four rows. -/

namespace Sys2Proof.Machine

/-- `DecodeLUT(abAB, a, b)` (R75): the direction and the new `abAB`, which is the index itself. -/
def decodeLut (abAB : BitVec 4) (a b : Level) : Direction × BitVec 4 :=
  let idx := lookupIndex abAB a b
  (romReadLut idx, idx)

/-- The LookupTable case of R62 and R63. -/
def runLut (a b : Int) (s : State) : Option (Direction × State) :=
  let r := decodeLut s.abAB (normLevel a) (normLevel b)
  some (r.1, s.setAbAB r.2)

/-- EDGE_A_RISE.LUT (R65, R75). -/
def execEdgeARiseLut (a b : Int) (s : State) : Answer :=
  trigger .aRise (runLut a b) s

/-- EDGE_A_FALL.LUT (R66, R75). -/
def execEdgeAFallLut (a b : Int) (s : State) : Answer :=
  trigger .aFall (runLut a b) s

/-- EDGE_B_RISE.LUT (R67, R75). -/
def execEdgeBRiseLut (a b : Int) (s : State) : Answer :=
  trigger .bRise (runLut a b) s

/-- EDGE_B_FALL.LUT (R68, R75). -/
def execEdgeBFallLut (a b : Int) (s : State) : Answer :=
  trigger .bFall (runLut a b) s

end Sys2Proof.Machine
end

