-- ==== Sys2Proof/Machine/Session.lean ====
section
/-! DEFINITION. The session operations INIT, READ_DIR, READ_BTN and TEARDOWN (R100 to R107). -/

namespace Sys2Proof.Machine

/-- INIT's steps 1 to 3 (R100), in phase IDLE, on operands at their widths: validation (R101), then registration (R102),
then the state (R103). On RegistrationError every handler the Sample Source installed is cancelled (R102, log 4). -/
def initSession (c : InitOperands) (s : State) : State :=
  match Mode.ofOperand c.mode with
  | none => s.raise .configurationError []
  | some m =>
    if pinsCollide c s.params.pinNone then s.raise .configurationError []
    else
      let want := wantedHandlers m (c.btnPin != s.params.pinNone)
      let asked := (registrations want c).map SourceCall.onEdge
      if want &&& ~~~c.regOk ≠ 0 then s.raise .registrationError (asked ++ cancellations (want &&& c.regOk))
      else (s.openSession c m want).finish (.status .ok) asked

/-- INIT (R100). With `phase = ACTIVE` the spec gives it no meaning (R107, X1). -/
def execInit (c : InitOperands) (s : State) : Answer :=
  if s.phase = .active then .refused .initWhileActive else .next (initSession (c.atWidths s.params) s)

/-- READ_DIR (R104): `v <- dir; dir <- 0; return v`, one step. With `phase = IDLE` the spec gives it no meaning
(R107, X2). -/
def execReadDir (s : State) : Answer :=
  if s.phase = .active then .next (s.clearDir.finish (.direction s.dir) [])
  else .refused .readDirWhileIdle

/-- READ_BTN (R105): 0 with no button attached, else `Debounced(now)`; no register is written. With `phase = IDLE`
the spec gives it no meaning (R107, X3). -/
def execReadBtn (now : Nat) (s : State) : Answer :=
  if s.phase = .active then
    .next (s.finish (.level (if s.hasButton then s.debounced now else 0)) [])
  else .refused .readBtnWhileIdle

/-- TEARDOWN (R106): cancel every registered handler, `ev_en <- 0`, `phase <- IDLE`, return OK. The other registers
of a live session hold no defined value afterwards (R25, log 6). In phase IDLE, where `ev_en = 0` (R12), it changes
nothing. The registered handlers are the set bits of `ev_en` (R12), and each is cancelled under its notification kind: the
spec gives a RegistrationHandle no form (DESIGN CHOICE, log 18). No configuration register is read (R26). -/
def execTeardown (s : State) : Answer :=
  .next (((if s.phase = .active then s.tear else s).closeSession).finish (.status .ok) (cancellations s.evEn))

end Sys2Proof.Machine
end

