-- ==== Sys2Proof/Machine/SingleEdge.lean ====
section
/-! DEFINITION. The mode SingleEdge (R70 to R74) and its four rows. A row is accepted by its bit of `ev_en` (R60); INIT enables only
A rising in this mode (R73), so in a session the other three rows are ignored (log 12). -/

namespace Sys2Proof.Machine

/-- `DecodeSE(b)` (R70): -1 when B reads high, +1 when it reads low. -/
def decodeSe (b : Level) : Direction :=
  if b = 1 then seDirBHigh else seDirBLow

/-- The SingleEdge case of R62: `a` is not read and no decoder register is written (R70, R72). -/
def runSe (_a b : Int) (s : State) : Option (Direction × State) :=
  some (decodeSe (normLevel b), s)

/-- EDGE_A_RISE.SE (R65, R70). -/
def execEdgeARiseSe (a b : Int) (s : State) : Answer :=
  trigger .aRise (runSe a b) s

/-- EDGE_A_FALL.SE (R66, R70). -/
def execEdgeAFallSe (a b : Int) (s : State) : Answer :=
  trigger .aFall (runSe a b) s

/-- EDGE_B_RISE.SE (R67, R70). -/
def execEdgeBRiseSe (a b : Int) (s : State) : Answer :=
  trigger .bRise (runSe a b) s

/-- EDGE_B_FALL.SE (R68, R70). -/
def execEdgeBFallSe (a b : Int) (s : State) : Answer :=
  trigger .bFall (runSe a b) s

end Sys2Proof.Machine
end

