-- ==== Sys2Proof/Machine/Dispatch.lean ====
section
/-! DEFINITION. One arm per instruction (R46, R55): each calls its meaning. -/

namespace Sys2Proof.Machine

def exec (i : Instr) (s : State) : Host.Outcome State Fault Refusal :=
  match i with
  | .init c => Sys2Proof.Machine.execInit c s
  | .teardown => Sys2Proof.Machine.execTeardown s
  | .readDir => Sys2Proof.Machine.execReadDir s
  | .readBtn now => Sys2Proof.Machine.execReadBtn now s
  | .edgeARiseSe a b => Sys2Proof.Machine.execEdgeARiseSe a b s
  | .edgeARiseLut a b => Sys2Proof.Machine.execEdgeARiseLut a b s
  | .edgeARiseHs a b => Sys2Proof.Machine.execEdgeARiseHs a b s
  | .edgeARiseFs a b => Sys2Proof.Machine.execEdgeARiseFs a b s
  | .edgeAFallSe a b => Sys2Proof.Machine.execEdgeAFallSe a b s
  | .edgeAFallLut a b => Sys2Proof.Machine.execEdgeAFallLut a b s
  | .edgeAFallHs a b => Sys2Proof.Machine.execEdgeAFallHs a b s
  | .edgeAFallFs a b => Sys2Proof.Machine.execEdgeAFallFs a b s
  | .edgeBRiseSe a b => Sys2Proof.Machine.execEdgeBRiseSe a b s
  | .edgeBRiseLut a b => Sys2Proof.Machine.execEdgeBRiseLut a b s
  | .edgeBRiseHs a b => Sys2Proof.Machine.execEdgeBRiseHs a b s
  | .edgeBRiseFs a b => Sys2Proof.Machine.execEdgeBRiseFs a b s
  | .edgeBFallSe a b => Sys2Proof.Machine.execEdgeBFallSe a b s
  | .edgeBFallLut a b => Sys2Proof.Machine.execEdgeBFallLut a b s
  | .edgeBFallHs a b => Sys2Proof.Machine.execEdgeBFallHs a b s
  | .edgeBFallFs a b => Sys2Proof.Machine.execEdgeBFallFs a b s
  | .btnEdge l now => Sys2Proof.Machine.execBtnEdge l now s
  | .btnTick now => Sys2Proof.Machine.execBtnTick now s

end Sys2Proof.Machine
end

