-- ==== Sys2Proof/Machine/Step.lean ====
section
/-! DEFINITION. One step: the next operation an agent applies takes effect whole (R7, R36). -/

namespace Sys2Proof.Machine

/-- The step. The block never acts on its own, so with nothing in the inbox nothing changes (R7, log 1). An input is
decoded under the current `cfg_mode` (R45, R55); a word the decoder rejects is refused (R53). -/
def step (s : State) : Host.Outcome State Fault Refusal :=
  match s.takeInput with
  | none => .next s
  | some (x, s') =>
    match decodeInput s.cfgMode x with
    | .instr i => exec i s'
    | .rejected r => .refused (refusalOf r)

/-- The state whose next step takes the operation of the table word `w` (log 11). -/
def State.withFetchWord (s : State) (nbits w : Nat) : State :=
  s.placeKey (BitVec.ofNat 10 (w % 2 ^ nbits))

end Sys2Proof.Machine
end

