-- ==== Sys2Proof/Safety.lean ====
section
/-! DEFINITION. The terms claims use: the session invariant, the agents and their operations (R7, R46), the spec's
tables written a second time from its derived rules (R31, R81, R86), runs of operations with their emissions, the
button's ideal output (R96) and the premises on time (R99). -/

namespace Sys2Proof.Machine

/-! The session invariant. -/

/-- While `phase = IDLE`, `ev_en = 0` (R12). -/
abbrev IdleDisabled (s : State) : Prop :=
  s.phase = .idle → s.evEn = 0

/-- While `phase = ACTIVE`, pins A and B are distinct and no sentinel, and the button pin is the sentinel or differs
from both (R10). -/
abbrev PinsDistinct (s : State) : Prop :=
  s.phase = .active →
    s.cfgPinA ≠ s.cfgPinB ∧ s.cfgPinA ≠ s.params.pinNone ∧ s.cfgPinB ≠ s.params.pinNone ∧
      (s.cfgBtnPin = s.params.pinNone ∨ (s.cfgBtnPin ≠ s.cfgPinA ∧ s.cfgBtnPin ≠ s.cfgPinB))

/-- While `phase = ACTIVE`, `ev_en` is what INIT writes for the mode and the button pin (R12). -/
abbrev EnablesMatch (s : State) : Prop :=
  s.phase = .active →
    s.evEn = (if s.cfgMode = .singleEdge then 0b00001#5 else 0b01111#5)
      ||| (if s.cfgBtnPin = s.params.pinNone then 0b00000#5 else 0b10000#5)

/-- While `phase = ACTIVE`, `abAB` is 0 in every mode but LookupTable (R13). -/
abbrev UnusedHistoryZero (s : State) : Prop :=
  s.phase = .active → s.cfgMode ≠ .lookupTable → s.abAB = 0

/-- The greatest legal `tstate` of a mode: 5 in HalfStep, 6 in FullStep, and 0 in the modes that do not use it (R14). -/
def lastRow : Mode → Nat
  | .singleEdge => 0
  | .lookupTable => 0
  | .halfStep => 5
  | .fullStep => 6

/-- While `phase = ACTIVE`, `tstate` is a legal row of the active table (R14, R35). -/
abbrev RowLegal (s : State) : Prop :=
  s.phase = .active → s.tstate.toNat ≤ lastRow s.cfgMode

/-- While `phase = ACTIVE` with no button attached, the button registers are 0 (R94). -/
abbrev NoButtonZero (s : State) : Prop :=
  s.phase = .active → s.cfgBtnPin = s.params.pinNone → s.btnLevel = 0 ∧ s.btnT = 0 ∧ s.btnOut = 0

/-- A pin register holds PIN_W bits, and the delay and the recorded time T_W bits (R10, R19, R26). -/
abbrev WidthsFit (s : State) : Prop :=
  s.cfgPinA < 2 ^ s.params.pinW ∧ s.cfgPinB < 2 ^ s.params.pinW ∧ s.cfgBtnPin < 2 ^ s.params.pinW ∧
    s.cfgDelay < 2 ^ s.params.tW ∧ s.btnT < 2 ^ s.params.tW

/-- What holds in every state a session reaches. -/
abbrev SessionInv (s : State) : Prop :=
  IdleDisabled s ∧ PinsDistinct s ∧ EnablesMatch s ∧ UnusedHistoryZero s ∧ RowLegal s ∧ NoButtonZero s ∧
    WidthsFit s

/-! INIT's operands. -/

/-- None of the conditions (a) to (d) of R101 holds, each pin taken at PIN_W bits. -/
abbrev validOperands (p : Params) (c : InitOperands) : Prop :=
  p.pin c.pinA ≠ p.pinNone ∧ p.pin c.pinB ≠ p.pinNone ∧ p.pin c.pinA ≠ p.pin c.pinB ∧
    (p.pin c.btnPin = p.pinNone ∨ (p.pin c.btnPin ≠ p.pin c.pinA ∧ p.pin c.btnPin ≠ p.pin c.pinB)) ∧ c.mode.toNat ≤ 3

/-- `want` as R100 computes it from the operands. -/
abbrev wantOf (p : Params) (c : InitOperands) : BitVec 5 :=
  (if c.mode = 0 then 0b00001#5 else 0b01111#5) ||| (if p.pin c.btnPin ≠ p.pinNone then 0b10000#5 else 0b00000#5)

/-! The agents. -/

/-- The three agents (R7). -/
inductive Agent where
  | handler
  | consumer
  | owner
deriving DecidableEq, Repr

/-- The agent that applies an operation (R46, column "agent"). -/
def agentOf : Instr → Agent
  | .init _ => .owner
  | .teardown => .owner
  | .readDir => .consumer
  | .readBtn _ => .consumer
  | .edgeARiseSe _ _ => .handler
  | .edgeARiseLut _ _ => .handler
  | .edgeARiseHs _ _ => .handler
  | .edgeARiseFs _ _ => .handler
  | .edgeAFallSe _ _ => .handler
  | .edgeAFallLut _ _ => .handler
  | .edgeAFallHs _ _ => .handler
  | .edgeAFallFs _ _ => .handler
  | .edgeBRiseSe _ _ => .handler
  | .edgeBRiseLut _ _ => .handler
  | .edgeBRiseHs _ _ => .handler
  | .edgeBRiseFs _ _ => .handler
  | .edgeBFallSe _ _ => .handler
  | .edgeBFallLut _ _ => .handler
  | .edgeBFallHs _ _ => .handler
  | .edgeBFallFs _ _ => .handler
  | .btnEdge _ _ => .handler
  | .btnTick _ => .handler

/-- The edge kind of an edge row (R60), and none of the other rows. -/
def edgeKindOf : Instr → Option EdgeKind
  | .init _ => none
  | .teardown => none
  | .readDir => none
  | .readBtn _ => none
  | .edgeARiseSe _ _ => some .aRise
  | .edgeARiseLut _ _ => some .aRise
  | .edgeARiseHs _ _ => some .aRise
  | .edgeARiseFs _ _ => some .aRise
  | .edgeAFallSe _ _ => some .aFall
  | .edgeAFallLut _ _ => some .aFall
  | .edgeAFallHs _ _ => some .aFall
  | .edgeAFallFs _ _ => some .aFall
  | .edgeBRiseSe _ _ => some .bRise
  | .edgeBRiseLut _ _ => some .bRise
  | .edgeBRiseHs _ _ => some .bRise
  | .edgeBRiseFs _ _ => some .bRise
  | .edgeBFallSe _ _ => some .bFall
  | .edgeBFallLut _ _ => some .bFall
  | .edgeBFallHs _ _ => some .bFall
  | .edgeBFallFs _ _ => some .bFall
  | .btnEdge _ _ => none
  | .btnTick _ => none

/-- The instruction with every level operand replaced by the 0 or 1 nearest to it (R8, R113). -/
def nearestLevels : Instr → Instr
  | .init c => .init c
  | .teardown => .teardown
  | .readDir => .readDir
  | .readBtn now => .readBtn now
  | .edgeARiseSe a b => .edgeARiseSe (max 0 (min 1 a)) (max 0 (min 1 b))
  | .edgeARiseLut a b => .edgeARiseLut (max 0 (min 1 a)) (max 0 (min 1 b))
  | .edgeARiseHs a b => .edgeARiseHs (max 0 (min 1 a)) (max 0 (min 1 b))
  | .edgeARiseFs a b => .edgeARiseFs (max 0 (min 1 a)) (max 0 (min 1 b))
  | .edgeAFallSe a b => .edgeAFallSe (max 0 (min 1 a)) (max 0 (min 1 b))
  | .edgeAFallLut a b => .edgeAFallLut (max 0 (min 1 a)) (max 0 (min 1 b))
  | .edgeAFallHs a b => .edgeAFallHs (max 0 (min 1 a)) (max 0 (min 1 b))
  | .edgeAFallFs a b => .edgeAFallFs (max 0 (min 1 a)) (max 0 (min 1 b))
  | .edgeBRiseSe a b => .edgeBRiseSe (max 0 (min 1 a)) (max 0 (min 1 b))
  | .edgeBRiseLut a b => .edgeBRiseLut (max 0 (min 1 a)) (max 0 (min 1 b))
  | .edgeBRiseHs a b => .edgeBRiseHs (max 0 (min 1 a)) (max 0 (min 1 b))
  | .edgeBRiseFs a b => .edgeBRiseFs (max 0 (min 1 a)) (max 0 (min 1 b))
  | .edgeBFallSe a b => .edgeBFallSe (max 0 (min 1 a)) (max 0 (min 1 b))
  | .edgeBFallLut a b => .edgeBFallLut (max 0 (min 1 a)) (max 0 (min 1 b))
  | .edgeBFallHs a b => .edgeBFallHs (max 0 (min 1 a)) (max 0 (min 1 b))
  | .edgeBFallFs a b => .edgeBFallFs (max 0 (min 1 a)) (max 0 (min 1 b))
  | .btnEdge l now => .btnEdge (max 0 (min 1 l)) now
  | .btnTick now => .btnTick now

/-- The instruction with every pin and time operand cut to its width (R52). -/
def operandsAtWidth (p : Params) : Instr → Instr
  | .init c => .init ⟨c.pinA % 2 ^ p.pinW, c.pinB % 2 ^ p.pinW, c.btnPin % 2 ^ p.pinW, c.mode, c.delay % 2 ^ p.tW, c.regOk⟩
  | .teardown => .teardown
  | .readDir => .readDir
  | .readBtn now => .readBtn (now % 2 ^ p.tW)
  | .edgeARiseSe a b => .edgeARiseSe a b
  | .edgeARiseLut a b => .edgeARiseLut a b
  | .edgeARiseHs a b => .edgeARiseHs a b
  | .edgeARiseFs a b => .edgeARiseFs a b
  | .edgeAFallSe a b => .edgeAFallSe a b
  | .edgeAFallLut a b => .edgeAFallLut a b
  | .edgeAFallHs a b => .edgeAFallHs a b
  | .edgeAFallFs a b => .edgeAFallFs a b
  | .edgeBRiseSe a b => .edgeBRiseSe a b
  | .edgeBRiseLut a b => .edgeBRiseLut a b
  | .edgeBRiseHs a b => .edgeBRiseHs a b
  | .edgeBRiseFs a b => .edgeBRiseFs a b
  | .edgeBFallSe a b => .edgeBFallSe a b
  | .edgeBFallLut a b => .edgeBFallLut a b
  | .edgeBFallHs a b => .edgeBFallHs a b
  | .edgeBFallFs a b => .edgeBFallFs a b
  | .btnEdge l now => .btnEdge l (now % 2 ^ p.tW)
  | .btnTick now => .btnTick (now % 2 ^ p.tW)

/-! The spec's tables, a second time. -/

/-- A reading counts as high from 1 up (R8). -/
abbrev high (v : Int) : Prop := 1 ≤ v

/-- The list of RPI 4.2 as R31 quotes it. -/
def lutLiteral : List Int :=
  [0, -1, 1, 0, 1, 0, 0, -1, -1, 0, 0, 1, 0, 1, -1, 0]

/-- The position of a reading AB on the +1 cycle 00, 10, 11, 01 (R78). -/
def cyclePosition (a b : Level) : Nat :=
  if a = 0 then (if b = 0 then 0 else 3) else (if b = 0 then 1 else 2)

/-- The transition function of HalfStep as R81 tabulates it: row by row, each cell the new `tstate` and `d`. -/
def hsCells : List (List (Nat × Int)) :=
  [ [(3, 0), (2, 0), (1, 0), (0, 0)],
    [(3, -1), (0, 0), (1, 0), (0, 0)],
    [(3, 1), (2, 0), (0, 0), (0, 0)],
    [(3, 0), (5, 0), (4, 0), (0, 0)],
    [(3, 0), (3, 0), (4, 0), (0, 1)],
    [(3, 0), (5, 0), (3, 0), (0, -1)] ]

/-- The transition function of FullStep as R86 tabulates it. -/
def fsCells : List (List (Nat × Int)) :=
  [ [(0, 0), (2, 0), (4, 0), (0, 0)],
    [(3, 0), (0, 0), (1, 0), (0, 1)],
    [(3, 0), (2, 0), (0, 0), (0, 0)],
    [(3, 0), (2, 0), (1, 0), (0, 0)],
    [(6, 0), (0, 0), (4, 0), (0, 0)],
    [(6, 0), (5, 0), (0, 0), (0, -1)],
    [(6, 0), (5, 0), (4, 0), (0, 0)] ]

/-- The cell of a row for the readings `a`, `b`: column 0 is AB = 00, 1 is AB = 01, 2 is AB = 10, 3 is AB = 11 (R32). -/
def cellAt (cells : List (List (Nat × Int))) (row : Nat) (a b : Int) : Option (Nat × Int) :=
  (cells[row]?).bind fun r => r[(if high a then 2 else 0) + (if high b then 1 else 0)]?

/-! Runs of operations. -/

/-- The operations applied one after the other; none where one of them stops. -/
def execAll : List Instr → State → Option State
  | [], s => some s
  | i :: is, s =>
    match exec i s with
    | .next t => execAll is t
    | .fault _ => none
    | .refused _ => none

/-- The emission an operation made from `s` to `t`, if it was an emission: an accepted trigger whose direction is not
0 (00_scope.md glossary; `last_dir` holds that direction, R63). -/
def emissionOf (i : Instr) (s t : State) : Option Direction :=
  match edgeKindOf i with
  | some k => if s.accepts (.edge k) = true ∧ t.lastDir ≠ .zero then some t.lastDir else none
  | none => none

/-- The emissions of a run, the first first. -/
def emissions : List Instr → State → List Direction
  | [], _ => []
  | i :: is, s =>
    match exec i s with
    | .next t => (emissionOf i s t).toList ++ emissions is t
    | .fault _ => []
    | .refused _ => []

/-- The sum of the emitted directions of a run. -/
def emittedSum (is : List Instr) (s : State) : Int :=
  ((emissions is s).map Direction.toInt).sum

/-- A reading of both pins as an edge notification delivers it: its kind and the levels. -/
structure Reading where
  kind : EdgeKind
  a : Level
  b : Level
deriving DecidableEq, Repr

/-- The edge operations of a list of readings in a mode. -/
def triggers (m : Mode) (rs : List Reading) : List Instr :=
  rs.map fun r => edgeInstr r.kind m (ofPort r.a) (ofPort r.b)

/-- A clean turn from the reading AB = `a`, `b`: every reading differs from the one before it in exactly one pin. -/
def cleanTurn (a b : Level) : List Reading → Bool
  | [] => true
  | r :: rs => ((r.a == a) != (r.b == b)) && cleanTurn r.a r.b rs

/-- The last reading of a turn that starts at AB = `a`, `b`. -/
def lastReading (a b : Level) : List Reading → Level × Level
  | [] => (a, b)
  | r :: rs => lastReading r.a r.b rs

/-! Time and the button. -/

/-- The elapsed time from `t` to `now` in ticks, modulo 2^T_W (R5, R57 (d)). -/
def ticksBetween (p : Params) (t now : Nat) : Nat :=
  (now + 2 ^ p.tW - t % 2 ^ p.tW) % 2 ^ p.tW

/-- The condition of `Settle` (R91): the recorded level differs from the debounced one and has stood for the delay. -/
abbrev standsLongEnough (s : State) (now : Nat) : Prop :=
  s.btnLevel ≠ s.btnOut ∧ s.cfgDelay ≤ ticksBetween s.params s.btnT now

/-- Button edges with their times in which every edge comes less than the delay after the one before it, the first
after time `t` (R97). -/
def rapidEdges (p : Params) (delay t : Nat) : List (Int × Nat) → Bool
  | [] => true
  | (_, u) :: es => decide (ticksBetween p t u < delay) && rapidEdges p delay u es

/-- A button operation at a time on the true, unbounded time axis (R99). -/
inductive ButtonOp where
  | edge (l : Int) (t : Nat)
  | tick (t : Nat)
deriving DecidableEq, Repr

/-- When the operation happens. -/
def ButtonOp.time : ButtonOp → Nat
  | .edge _ t => t
  | .tick t => t

/-- The operation as the block receives it: its `now` is the T_W-bit reading of the clock (R121). -/
def ButtonOp.instr (p : Params) : ButtonOp → Instr
  | .edge l t => .btnEdge l (t % 2 ^ p.tW)
  | .tick t => .btnTick (t % 2 ^ p.tW)

/-- The edges of a history with their times, the latest first, added before those already recorded. -/
def edgesBefore (past : List (Nat × Int)) : List ButtonOp → List (Nat × Int)
  | [] => past
  | .edge l t :: ops => edgesBefore ((t, l) :: past) ops
  | .tick _ :: ops => edgesBefore past ops

/-- The premises on time (R99): times do not decrease, and no time is 2^T_W ticks or more after the last edge before
it. -/
def timely (p : Params) (lastEdge : Option Nat) (last : Nat) : List ButtonOp → Bool
  | [] => true
  | op :: ops =>
    decide (last ≤ op.time)
      && (match lastEdge with
          | some e => decide (op.time - e < 2 ^ p.tW)
          | none => true)
      && timely p (match op with
          | .edge _ t => some t
          | .tick _ => lastEdge) op.time ops

/-- The ideal output at time `t` (R96): the level of the last edge if it is at least the delay before `t`; otherwise
the ideal output at that edge's own time as it would be had that edge not occurred; 0 before the first edge. -/
def idealOutput (delay : Nat) : List (Nat × Int) → Nat → Level
  | [], _ => 0
  | (e, l) :: past, t => if delay ≤ t - e then (if high l then 1 else 0) else idealOutput delay past e

/-! What each half of the block sees. -/

/-- The registers the decoder and the reading of `dir` depend on. -/
abbrev decoderView (s : State) :=
  (s.params, s.phase, s.evEn, s.cfgMode, s.abAB, s.tstate, s.lastDir, s.dir, s.draws)

/-- The registers the debouncer and READ_BTN depend on. -/
abbrev buttonView (s : State) :=
  (s.params, s.phase, s.evEn, s.cfgBtnPin, s.cfgDelay, s.btnOut, s.btnLevel, s.btnT, s.draws)

end Sys2Proof.Machine
end

