-- ==== Sys2Proof/Certificates/Slice0/Obligations.lean ====
section
/-! DEFINITION. The statements about the model, from the spec's numbered rules. `edgeInstr k m a b` ranges over the
sixteen edge rows; `high v` is a reading of 1 or more; `{ s with … }` is the frame: every field not named keeps its
value. The fields `inbox`, `result`, `calls` and `draws` are the model's own (log 1, log 3, log 6). A row
acts in its own mode (log 12). -/

open Sys2Proof Sys2Proof.Machine

/-! Encoding. -/

/-- R45, R46, R55: an event word and its side-band operands carry every operand of every well-formed instruction;
`m` fills the mode bits of the rows that do not fix them, and `p` is the widths of the operands. -/
def Obligations.DecodeOfEncodeIsTheInstruction : Prop :=
  ∀ (p : Params) (m : Mode) (i : Instr), i.wf p = true → decode (encode m i).1 (encode m i).2 = .instr i

/-- R45, R52, R53, R55: the decoder accepts no key but the encoding of the instruction it reads, and that instruction has
operands of the widths the side-band operands have. -/
def Obligations.AcceptedKeyIsTheEncoding : Prop :=
  ∀ (p : Params) (k : BitVec 10) (side : SideBand) (i : Instr), side.wf p = true →
    decode k side = .instr i → i.wf p = true ∧ (encode (keyMode k) i).1 = k

/-- R46, R55: the event words of the ten operations, row by row, in every mode and for both values of every level. -/
def Obligations.OperationWordsDecodeToTheirRows : Prop :=
  ∀ (m : Mode) (side : SideBand) (a b l : Level),
    decode (m.code ++ 0x00#8) side = .instr (.init side.init) ∧
    decode (m.code ++ 0x10#8) side = .instr .teardown ∧
    decode (m.code ++ 0x20#8) side = .instr .readDir ∧
    decode (m.code ++ 0x30#8) side = .instr (.readBtn side.now) ∧
    decode (0b00#2 ++ 0x4#4 ++ 0b00#2 ++ a ++ b) side = .instr (.edgeARiseSe (ofPort a) (ofPort b)) ∧
    decode (0b01#2 ++ 0x4#4 ++ 0b00#2 ++ a ++ b) side = .instr (.edgeARiseLut (ofPort a) (ofPort b)) ∧
    decode (0b10#2 ++ 0x4#4 ++ 0b00#2 ++ a ++ b) side = .instr (.edgeARiseHs (ofPort a) (ofPort b)) ∧
    decode (0b11#2 ++ 0x4#4 ++ 0b00#2 ++ a ++ b) side = .instr (.edgeARiseFs (ofPort a) (ofPort b)) ∧
    decode (0b00#2 ++ 0x5#4 ++ 0b00#2 ++ a ++ b) side = .instr (.edgeAFallSe (ofPort a) (ofPort b)) ∧
    decode (0b01#2 ++ 0x5#4 ++ 0b00#2 ++ a ++ b) side = .instr (.edgeAFallLut (ofPort a) (ofPort b)) ∧
    decode (0b10#2 ++ 0x5#4 ++ 0b00#2 ++ a ++ b) side = .instr (.edgeAFallHs (ofPort a) (ofPort b)) ∧
    decode (0b11#2 ++ 0x5#4 ++ 0b00#2 ++ a ++ b) side = .instr (.edgeAFallFs (ofPort a) (ofPort b)) ∧
    decode (0b00#2 ++ 0x6#4 ++ 0b00#2 ++ a ++ b) side = .instr (.edgeBRiseSe (ofPort a) (ofPort b)) ∧
    decode (0b01#2 ++ 0x6#4 ++ 0b00#2 ++ a ++ b) side = .instr (.edgeBRiseLut (ofPort a) (ofPort b)) ∧
    decode (0b10#2 ++ 0x6#4 ++ 0b00#2 ++ a ++ b) side = .instr (.edgeBRiseHs (ofPort a) (ofPort b)) ∧
    decode (0b11#2 ++ 0x6#4 ++ 0b00#2 ++ a ++ b) side = .instr (.edgeBRiseFs (ofPort a) (ofPort b)) ∧
    decode (0b00#2 ++ 0x7#4 ++ 0b00#2 ++ a ++ b) side = .instr (.edgeBFallSe (ofPort a) (ofPort b)) ∧
    decode (0b01#2 ++ 0x7#4 ++ 0b00#2 ++ a ++ b) side = .instr (.edgeBFallLut (ofPort a) (ofPort b)) ∧
    decode (0b10#2 ++ 0x7#4 ++ 0b00#2 ++ a ++ b) side = .instr (.edgeBFallHs (ofPort a) (ofPort b)) ∧
    decode (0b11#2 ++ 0x7#4 ++ 0b00#2 ++ a ++ b) side = .instr (.edgeBFallFs (ofPort a) (ofPort b)) ∧
    decode (m.code ++ 0x8#4 ++ 0b000#3 ++ l) side = .instr (.btnEdge (ofPort l) side.now) ∧
    decode (m.code ++ 0x90#8) side = .instr (.btnTick side.now)

/-- R53 (a), (b): an event word with a reserved operation code, or with a reserved argument bit that is 1, stops the
step under its own name. -/
def Obligations.ReservedEventWordsAreRefused : Prop :=
  ∀ (s : State) (w : BitVec 8) (side : SideBand) (rest : List Input),
    s.inbox = .event w side :: rest →
      (10 ≤ w.toNat / 16 → step s = .refused (.reservedOperation (w.extractLsb' 4 4))) ∧
      ((w.toNat / 16 ≤ 3 ∨ w.toNat / 16 = 9) → w &&& 0b1111 ≠ 0 → step s = .refused (.reservedArgument w)) ∧
      (4 ≤ w.toNat / 16 → w.toNat / 16 ≤ 7 → w &&& 0b1100 ≠ 0 → step s = .refused (.reservedArgument w)) ∧
      (w.toNat / 16 = 8 → w &&& 0b1110 ≠ 0 → step s = .refused (.reservedArgument w))

/-- R50: the direction code, the integer it stands for, its sign extension, and that READ_DIR returns the direction
itself. -/
def Obligations.DirectionCodesSignExtend : Prop :=
  Direction.code .zero = 0b00 ∧ Direction.code .pos = 0b01 ∧ Direction.code .neg = 0b11 ∧
    Direction.toInt .zero = 0 ∧ Direction.toInt .pos = 1 ∧ Direction.toInt .neg = -1 ∧
    (∀ d : Direction, d.code ≠ 0b10) ∧
    (∀ (n : Nat) (d : Direction), 2 ≤ n → (d.sext n).toInt = d.toInt) ∧
    ∀ s : State, s.phase = .active → ∃ t, exec .readDir s = .next t ∧ t.result = .direction s.dir

/-- R51, R54: the mode and status codes, and the mode codes INIT recognises; R4: the OPEN parameters are 8 and 32 after power-on,
and the sentinel is 2^PIN_W - 1 at every width. -/
def Obligations.CodesOfModesStatusesAndTheSentinel : Prop :=
  (State.reset.params = { pinW := 8, tW := 32 } ∧ State.reset.params.pinNone = 0xFF ∧
    ∀ p : Params, p.pinNone + 1 = 2 ^ p.pinW) ∧
  (Mode.code .singleEdge = 0 ∧ Mode.code .lookupTable = 1 ∧ Mode.code .halfStep = 2 ∧ Mode.code .fullStep = 3) ∧
    (Status.code .ok = 0 ∧ Status.code .configurationError = 1 ∧ Status.code .registrationError = 2) ∧
    ∀ m : BitVec 8,
      (m.toNat ≤ 3 → ∃ mode, Mode.ofOperand m = some mode ∧ mode.code = m.extractLsb' 0 2) ∧
      (4 ≤ m.toNat → Mode.ofOperand m = none)

/-! The step. -/

/-- R7, log 1: the step is `exec` of the decoded operation with that operation taken from the inbox; a rejected word
is refused; with no operation to apply nothing changes (the model's choice, log 1). -/
def Obligations.StepRunsTheDecodedOperation : Prop :=
  ∀ s : State,
    (s.inbox = [] → step s = .next s) ∧
    ∀ (x : Input) (rest : List Input), s.inbox = x :: rest →
      (∀ i, decodeInput s.cfgMode x = .instr i → step s = exec i { s with inbox := rest }) ∧
      (∀ op, decodeInput s.cfgMode x = .rejected (.reservedOperation op) →
        step s = .refused (.reservedOperation op)) ∧
      (∀ w, decodeInput s.cfgMode x = .rejected (.reservedArgument w) → step s = .refused (.reservedArgument w))

/-- R118, R45, log 2: a handler invocation runs the row of its operation in the current mode with its readings, and an
event word is decoded by the key of `cfg_mode` and the word. -/
def Obligations.InputsDecodeUnderTheCurrentMode : Prop :=
  ∀ (m : Mode) (k : EdgeKind) (a b l : Int) (now : Nat) (w : BitVec 8) (side : SideBand),
    decodeInput m (.edgeNotice k a b) = .instr (edgeInstr k m a b) ∧
    decodeInput m (.buttonNotice l now) = .instr (.btnEdge l now) ∧
    decodeInput m (.event w side) = decode (m.code ++ w) side

/-- R8: every level operand acts as the 0 or 1 nearest to it, in every instruction and every state; on the reading of a
one-bit port `Norm` is the identity. -/
def Obligations.LevelsActAsTheNearestBoolean : Prop :=
  (∀ v : Int, v ≤ 0 → normLevel v = 0) ∧ (∀ v : Int, 1 ≤ v → normLevel v = 1) ∧
    (∀ l : Level, normLevel (ofPort l) = l) ∧
    ∀ (i : Instr) (s : State), exec i s = exec (nearestLevels i) s

/-- R4, R52: a pin operand acts as its PIN_W bits and a time or delay operand as its T_W bits, in every instruction, every
state and at every width. -/
def Obligations.OperandsActAtTheirWidths : Prop :=
  ∀ (i : Instr) (s : State), exec i s = exec (operandsAtWidth s.params i) s

/-- R4: no step changes the parameters the machine was given. -/
def Obligations.ParametersNeverChange : Prop :=
  ∀ s t : State, step s = .next t → t.params = s.params

/-! Edge operations. -/

/-- R60: an edge operation that is not accepted is ignored, in all sixteen rows. -/
def Obligations.EdgeNotAcceptedIsIgnored : Prop :=
  ∀ (k : EdgeKind) (m : Mode) (a b : Int) (s : State),
    ¬(s.phase = .active ∧ s.evEn.getLsbD (HandlerKind.edge k).bit = true) →
      exec (edgeInstr k m a b) s = .next { s with result := .none, calls := [] }

/-- R70: the key of EDGE_A_RISE in SingleEdge, and an accepted SingleEdge trigger. -/
def Obligations.SingleEdgeTriggerEmitsByB : Prop :=
  (∀ (side : SideBand) (a b : Level),
    decode (0b00#2 ++ 0x4#4 ++ 0b00#2 ++ a ++ b) side = .instr (edgeInstr .aRise .singleEdge (ofPort a) (ofPort b))) ∧
  ∀ (k : EdgeKind) (a b : Int) (s : State),
    s.phase = .active → s.cfgMode = .singleEdge → s.evEn.getLsbD (HandlerKind.edge k).bit = true →
      (high b → exec (edgeInstr k .singleEdge a b) s =
        .next { s with lastDir := .neg, dir := .neg, result := .none, calls := [] }) ∧
      (¬high b → exec (edgeInstr k .singleEdge a b) s =
        .next { s with lastDir := .pos, dir := .pos, result := .none, calls := [] })

/-- R73: in a SingleEdge session only A rising is ever a trigger. -/
def Obligations.SingleEdgeIgnoresTheOtherKinds : Prop :=
  ∀ (k : EdgeKind) (a b : Int) (s : State),
    SessionInv s → s.phase = .active → s.cfgMode = .singleEdge →
      s.evEn.extractLsb' 0 4 = 0b0001 ∧
      (k ≠ .aRise →
        exec (edgeInstr k .singleEdge a b) s = .next { s with result := .none, calls := [] })

/-- R75: the keys of the LookupTable rows, and an accepted LookupTable trigger: the index, the direction of the literal
table (R31), the new history. -/
def Obligations.LookupTableTriggerFollowsTheLiteral : Prop :=
  (∀ (side : SideBand) (a b : Level),
    decode (0b01#2 ++ 0x4#4 ++ 0b00#2 ++ a ++ b) side = .instr (edgeInstr .aRise .lookupTable (ofPort a) (ofPort b)) ∧
    decode (0b01#2 ++ 0x5#4 ++ 0b00#2 ++ a ++ b) side = .instr (edgeInstr .aFall .lookupTable (ofPort a) (ofPort b)) ∧
    decode (0b01#2 ++ 0x6#4 ++ 0b00#2 ++ a ++ b) side = .instr (edgeInstr .bRise .lookupTable (ofPort a) (ofPort b)) ∧
    decode (0b01#2 ++ 0x7#4 ++ 0b00#2 ++ a ++ b) side = .instr (edgeInstr .bFall .lookupTable (ofPort a) (ofPort b))) ∧
  ∀ (k : EdgeKind) (a b : Int) (s : State),
    s.phase = .active → s.cfgMode = .lookupTable → s.evEn.getLsbD (HandlerKind.edge k).bit = true →
      ∃ (idx : Nat) (d : Direction),
        idx = (s.abAB.toNat % 4) * 4 + (if high a then 2 else 0) + (if high b then 1 else 0) ∧
        lutLiteral[idx]? = some d.toInt ∧
        exec (edgeInstr k .lookupTable a b) s =
          .next { s with
            abAB := BitVec.ofNat 4 idx, lastDir := d, dir := if d = .zero then s.dir else d,
            result := .none, calls := [] }

/-- R78, R76: the table gives +1 for one position forward on the cycle 00, 10, 11, 01, -1 for one position backward,
and 0 for the other eight pairs of readings. -/
def Obligations.LookupTableFollowsTheCycle : Prop :=
  ∀ (h : BitVec 2) (pa pb a b : Level),
    (decodeLut (h ++ pa ++ pb) a b).1 =
      (if cyclePosition a b = (cyclePosition pa pb + 1) % 4 then .pos
       else if cyclePosition pa pb = (cyclePosition a b + 1) % 4 then .neg
       else .zero)

/-- R81: an accepted HalfStep trigger follows the tabulated transition function, and exactly four entries emit. -/
def Obligations.HalfStepTriggerFollowsTheTable : Prop :=
  (romReadHs 2 0 = some 0x13 ∧ romReadHs 4 3 = some 0x10 ∧ romReadHs 1 0 = some 0x23 ∧ romReadHs 5 3 = some 0x20) ∧
  (∀ (r : BitVec 4) (c : BitVec 2) (e : BitVec 8), romReadHs r c = some e → entryDirection e ≠ .zero →
    (r = 2 ∧ c = 0) ∨ (r = 4 ∧ c = 3) ∨ (r = 1 ∧ c = 0) ∨ (r = 5 ∧ c = 3)) ∧
  ∀ (k : EdgeKind) (a b : Int) (s : State),
    s.phase = .active → s.cfgMode = .halfStep → s.evEn.getLsbD (HandlerKind.edge k).bit = true → s.tstate.toNat ≤ 5 →
      ∃ (row : Nat) (d : Direction),
        cellAt hsCells s.tstate.toNat a b = some (row, d.toInt) ∧
        exec (edgeInstr k .halfStep a b) s =
          .next { s with
            tstate := BitVec.ofNat 4 row, lastDir := d, dir := if d = .zero then s.dir else d,
            result := .none, calls := [] }

/-- R86: an accepted FullStep trigger follows the tabulated transition function, and exactly two entries emit. -/
def Obligations.FullStepTriggerFollowsTheTable : Prop :=
  (romReadFs 1 3 = some 0x10 ∧ romReadFs 5 3 = some 0x20) ∧
  (∀ (r : BitVec 4) (c : BitVec 2) (e : BitVec 8), romReadFs r c = some e → entryDirection e ≠ .zero →
    (r = 1 ∧ c = 3) ∨ (r = 5 ∧ c = 3)) ∧
  ∀ (k : EdgeKind) (a b : Int) (s : State),
    s.phase = .active → s.cfgMode = .fullStep → s.evEn.getLsbD (HandlerKind.edge k).bit = true → s.tstate.toNat ≤ 6 →
      ∃ (row : Nat) (d : Direction),
        cellAt fsCells s.tstate.toNat a b = some (row, d.toInt) ∧
        exec (edgeInstr k .fullStep a b) s =
          .next { s with
            tstate := BitVec.ofNat 4 row, lastDir := d, dir := if d = .zero then s.dir else d,
            result := .none, calls := [] }

/-- R35: the table reads and their ranges; a `tstate` forced out of range stops an accepted trigger by name. -/
def Obligations.TransitionTablesStayInRange : Prop :=
  (∀ (r : BitVec 4) (c : BitVec 2),
    (r.toNat ≤ 5 → ∃ e, romReadHs r c = some e ∧ (entryNextRow e).toNat ≤ 5) ∧
    (6 ≤ r.toNat → romReadHs r c = none) ∧
    (r.toNat ≤ 6 → ∃ e, romReadFs r c = some e ∧ (entryNextRow e).toNat ≤ 6) ∧
    (7 ≤ r.toNat → romReadFs r c = none)) ∧
  ∀ (k : EdgeKind) (a b : Int) (s : State),
    s.phase = .active → s.evEn.getLsbD (HandlerKind.edge k).bit = true →
      (6 ≤ s.tstate.toNat → exec (edgeInstr k .halfStep a b) s = .refused .rowOutOfRange) ∧
      (7 ≤ s.tstate.toNat → exec (edgeInstr k .fullStep a b) s = .refused .rowOutOfRange)

/-- R47: the emission flag and the next row of a table entry, and the flags that occur in the two tables. -/
def Obligations.EntryNibblesGiveDirectionAndRow : Prop :=
  (∀ hi lo : BitVec 4,
    entryNextRow (hi ++ lo) = lo ∧
    (hi = 0x1 → entryDirection (hi ++ lo) = .pos) ∧
    (hi = 0x2 → entryDirection (hi ++ lo) = .neg) ∧
    (hi ≠ 0x1 → hi ≠ 0x2 → entryDirection (hi ++ lo) = .zero)) ∧
  ∀ (r : BitVec 4) (c : BitVec 2) (e : BitVec 8),
    romReadHs r c = some e ∨ romReadFs r c = some e →
      e.extractLsb' 4 4 = 0x0 ∨ e.extractLsb' 4 4 = 0x1 ∨ e.extractLsb' 4 4 = 0x2

/-- R69: in modes 1, 2 and 3 the four edge operations have equal effect. -/
def Obligations.EdgeKindsAreInterchangeable : Prop :=
  ∀ (j k : EdgeKind) (a b : Int) (s : State),
    SessionInv s → s.cfgMode ≠ .singleEdge →
      exec (edgeInstr j s.cfgMode a b) s = exec (edgeInstr k s.cfgMode a b) s

/-- R114, R64: in a session no reading stops the block: every edge operation and every button operation completes,
returns nothing and asks nothing of the Sample Source. -/
def Obligations.HandlerOperationsNeverStop : Prop :=
  ∀ (s : State), SessionInv s →
    (∀ (k : EdgeKind) (a b : Int), ∃ t, exec (edgeInstr k s.cfgMode a b) s = .next t ∧
      t.result = .none ∧ t.calls = []) ∧
    (∀ (l : Int) (now : Nat), ∃ t, exec (.btnEdge l now) s = .next t ∧ t.result = .none ∧ t.calls = []) ∧
    (∀ now : Nat, ∃ t, exec (.btnTick now) s = .next t ∧ t.result = .none ∧ t.calls = [])

/-- R63, R98 (d): what an edge operation of any row can change: `abAB` in LookupTable, `tstate` in HalfStep and
FullStep, `last_dir`, and `dir` only to a direction that is not 0. -/
def Obligations.EdgeFrame : Prop :=
  ∀ (k : EdgeKind) (m : Mode) (a b : Int) (s t : State),
    exec (edgeInstr k m a b) s = .next t →
      t = { s with
        abAB := t.abAB, tstate := t.tstate, lastDir := t.lastDir, dir := t.dir, result := .none, calls := [] } ∧
      (m ≠ .lookupTable → t.abAB = s.abAB) ∧
      (m ≠ .halfStep → m ≠ .fullStep → t.tstate = s.tstate) ∧
      (t.dir = s.dir ∨ (t.dir = t.lastDir ∧ t.dir ≠ .zero))

/-- R136 (b): whatever the table row, a HalfStep reading of 00 leads to row 3 and of 11 to row 0, and a FullStep reading of
11 leads to row 0. -/
def Obligations.RestReadingsResynchronise : Prop :=
  ∀ (k : EdgeKind) (a b : Int) (s t : State),
    s.phase = .active → s.evEn.getLsbD (HandlerKind.edge k).bit = true →
      (exec (edgeInstr k .halfStep a b) s = .next t → ¬high a → ¬high b → t.tstate = 3) ∧
      (exec (edgeInstr k .halfStep a b) s = .next t → high a → high b → t.tstate = 0) ∧
      (exec (edgeInstr k .fullStep a b) s = .next t → high a → high b → t.tstate = 0)

/-- R88: FullStep emits at most once in four triggers, whatever the readings; from row 0 the first emission too needs
four. -/
def Obligations.FullStepNeedsFourTriggersPerEmission : Prop :=
  ∀ (rs : List Reading) (s : State),
    SessionInv s → s.phase = .active → s.cfgMode = .fullStep →
      4 * (emissions (triggers .fullStep rs) s).length ≤ rs.length + 3 ∧
      (s.tstate = 0 → 4 * (emissions (triggers .fullStep rs) s).length ≤ rs.length)

/-- R83: HalfStep emits at most once in two triggers, whatever the readings. -/
def Obligations.HalfStepNeedsTwoTriggersPerEmission : Prop :=
  ∀ (rs : List Reading) (s : State),
    SessionInv s → s.phase = .active → s.cfgMode = .halfStep →
      2 * (emissions (triggers .halfStep rs) s).length ≤ rs.length + 1 ∧
      (s.tstate = 0 → 2 * (emissions (triggers .halfStep rs) s).length ≤ rs.length)

/-- R142, R78, R83, R88: three sessions in the three table modes, at rest at AB = 11, see the same clean turn. When it
is back at 11, the LookupTable sum of emissions is twice the HalfStep sum and four times the FullStep sum, in the same
sense; at AB = 00 the LookupTable sum is twice the HalfStep sum. -/
def Obligations.CleanTurnsAgreeAcrossModes : Prop :=
  ∀ (rs : List Reading) (lu hs fs : State),
    SessionInv lu → SessionInv hs → SessionInv fs →
    lu.phase = .active → hs.phase = .active → fs.phase = .active →
    lu.cfgMode = .lookupTable → hs.cfgMode = .halfStep → fs.cfgMode = .fullStep →
    lu.abAB.extractLsb' 0 2 = 0b11 → hs.tstate = 0 → fs.tstate = 0 →
    cleanTurn 1 1 rs = true →
      (lastReading 1 1 rs = (1, 1) →
        emittedSum (triggers .lookupTable rs) lu = 2 * emittedSum (triggers .halfStep rs) hs ∧
        emittedSum (triggers .lookupTable rs) lu = 4 * emittedSum (triggers .fullStep rs) fs) ∧
      (lastReading 1 1 rs = (0, 0) →
        emittedSum (triggers .lookupTable rs) lu = 2 * emittedSum (triggers .halfStep rs) hs)

/-! Button operations. -/

/-- R90, R91: BTN_EDGE, accepted and not accepted; its enable bit implies a button. -/
def Obligations.BtnEdgeSettlesThenRecords : Prop :=
  (∀ (m : Mode) (side : SideBand) (l : Level),
    decode (m.code ++ 0x8#4 ++ 0b000#3 ++ l) side = .instr (.btnEdge (ofPort l) side.now)) ∧
  ∀ (l : Int) (now : Nat) (s : State),
    (SessionInv s → s.phase = .active ∧ s.evEn.getLsbD 4 = true → s.cfgBtnPin ≠ s.params.pinNone) ∧
    (s.phase = .active ∧ s.evEn.getLsbD 4 = true →
      exec (.btnEdge l now) s =
        .next { s with
          btnOut := if standsLongEnough s now then s.btnLevel else s.btnOut
          btnLevel := if high l then 1 else 0
          btnT := now % 2 ^ s.params.tW, result := .none, calls := [] }) ∧
    (¬(s.phase = .active ∧ s.evEn.getLsbD 4 = true) →
      exec (.btnEdge l now) s = .next { s with result := .none, calls := [] })

/-- R92, R91: BTN_TICK, accepted and not accepted. -/
def Obligations.BtnTickSettles : Prop :=
  (∀ (m : Mode) (side : SideBand), decode (m.code ++ 0x90#8) side = .instr (.btnTick side.now)) ∧
  ∀ (now : Nat) (s : State),
    (s.phase = .active ∧ s.cfgBtnPin ≠ s.params.pinNone →
      exec (.btnTick now) s =
        .next { s with
          btnOut := if standsLongEnough s now then s.btnLevel else s.btnOut, result := .none, calls := [] }) ∧
    (¬(s.phase = .active ∧ s.cfgBtnPin ≠ s.params.pinNone) →
      exec (.btnTick now) s = .next { s with result := .none, calls := [] })

/-- R94: in a session opened with no button attached, after any operations but TEARDOWN: BTN_EDGE and BTN_TICK are
ignored, the button registers are 0, and READ_BTN returns 0. -/
def Obligations.NoButtonDisablesTheDebouncer : Prop :=
  ∀ (c : InitOperands) (is : List Instr) (l : Int) (now : Nat) (s t u : State),
    s.params.pin c.btnPin = s.params.pinNone → exec (.init c) s = .next t → t.result = .status .ok →
    (∀ i ∈ is, i ≠ .teardown) → execAll is t = some u →
      u.evEn.getLsbD 4 = false ∧ u.btnLevel = 0 ∧ u.btnT = 0 ∧ u.btnOut = 0 ∧
      exec (.btnEdge l now) u = .next { u with result := .none, calls := [] } ∧
      exec (.btnTick now) u = .next { u with result := .none, calls := [] } ∧
      exec (.readBtn now) u = .next { u with result := .level 0, calls := [] }

/-- R92, R96: under the premises of R99, a BTN_TICK never changes what a later READ_BTN returns. -/
def Obligations.TickNeverChangesALaterRead : Prop :=
  ∀ (now later : Nat) (s : State),
    s.phase = .active → s.cfgBtnPin ≠ s.params.pinNone →
    ticksBetween s.params s.btnT now ≤ ticksBetween s.params s.btnT later →
      ∃ (t : State) (v : Level),
        exec (.btnTick now) s = .next t ∧
        exec (.readBtn later) t = .next { t with result := .level v, calls := [] } ∧
        exec (.readBtn later) s = .next { s with result := .level v, calls := [] }

/-- R97: edges less than the delay apart accept nothing, and the last recorded level is accepted from the delay after
it on. -/
def Obligations.BounceIsDiscarded : Prop :=
  ∀ (es : List (Int × Nat)) (s : State),
    s.phase = .active → s.evEn.getLsbD 4 = true → s.cfgBtnPin ≠ s.params.pinNone →
    rapidEdges s.params s.cfgDelay s.btnT es = true →
      ∃ t, execAll (es.map fun e => .btnEdge e.1 e.2) s = some t ∧
        t.btnOut = s.btnOut ∧
        t.btnLevel = (es.getLast?.map fun e => if high e.1 then 1#1 else 0#1).getD s.btnLevel ∧
        t.btnT = (es.getLast?.map fun e => e.2 % 2 ^ s.params.tW).getD s.btnT ∧
        ∀ now : Nat, s.cfgDelay ≤ ticksBetween s.params t.btnT now →
          exec (.btnTick now) t = .next { t with btnOut := t.btnLevel, result := .none, calls := [] }

/-- R96, R99: from freshly reset button registers, whatever edges and ticks are applied under the premises on time,
READ_BTN returns the ideal output. -/
def Obligations.DebouncerReturnsTheIdealOutput : Prop :=
  ∀ (ops : List ButtonOp) (t : Nat) (s : State),
    s.phase = .active → s.evEn.getLsbD 4 = true → s.cfgBtnPin ≠ s.params.pinNone →
    s.btnLevel = 0 → s.btnOut = 0 →
    timely s.params none 0 (ops ++ [.tick t]) = true →
      ∃ u, execAll (ops.map (ButtonOp.instr s.params)) s = some u ∧
        exec (.readBtn (t % 2 ^ s.params.tW)) u =
          .next { u with
            result := .level (idealOutput s.cfgDelay (edgesBefore [] ops) t), calls := [] }

/-! Session operations. -/

/-- R101: INIT returns ConfigurationError for an invalid configuration, writes no register and asks for no registration,
and returns it for no other one, whatever `delay` and `reg_ok` are. -/
def Obligations.InitRejectsAnInvalidConfiguration : Prop :=
  ∀ (c : InitOperands) (s : State), s.phase = .idle →
    (s.params.pin c.pinA = s.params.pinNone ∨ s.params.pin c.pinB = s.params.pinNone ∨
      s.params.pin c.pinA = s.params.pin c.pinB ∨
      (s.params.pin c.btnPin ≠ s.params.pinNone ∧
        (s.params.pin c.btnPin = s.params.pin c.pinA ∨ s.params.pin c.btnPin = s.params.pin c.pinB)) ∨
      4 ≤ c.mode.toNat →
      exec (.init c) s = .next { s with result := .status .configurationError, calls := [] }) ∧
    ∀ t, exec (.init c) s = .next t → t.result = .status .configurationError → ¬validOperands s.params c

/-- R102, R111: a valid configuration with a wanted handler refused: INIT returns RegistrationError, writes no register,
and cancels every handler installed. The order of the calls and the naming of a handle by its kind are the model's choice
(log 4, log 18). -/
def Obligations.InitReportsARefusedHandler : Prop :=
  ∀ (c : InitOperands) (s : State), s.phase = .idle → validOperands s.params c → wantOf s.params c &&& ~~~c.regOk ≠ 0 →
    exec (.init c) s =
      .next { s with
        result := .status .registrationError
        calls := (registrations (wantOf s.params c) (c.atWidths s.params)).map SourceCall.onEdge
          ++ cancellations (wantOf s.params c &&& c.regOk) }

/-- R100, R103, R131: a valid configuration with every wanted handler installed opens a session. The order of the calls
is the model's choice (log 4). -/
def Obligations.InitOpensASession : Prop :=
  ∀ (c : InitOperands) (s : State), s.phase = .idle → validOperands s.params c → wantOf s.params c &&& ~~~c.regOk = 0 →
    ∃ mode : Mode, mode.code = c.mode.extractLsb' 0 2 ∧
      exec (.init c) s =
        .next { s with
          phase := .active, evEn := wantOf s.params c
          cfgPinA := c.pinA % 2 ^ s.params.pinW, cfgPinB := c.pinB % 2 ^ s.params.pinW
          cfgBtnPin := c.btnPin % 2 ^ s.params.pinW, cfgMode := mode, cfgDelay := c.delay % 2 ^ s.params.tW
          abAB := 0, tstate := 0, lastDir := .zero, dir := .zero, btnOut := 0, btnLevel := 0, btnT := 0
          result := .status .ok
          calls := (registrations (wantOf s.params c) (c.atWidths s.params)).map SourceCall.onEdge }

/-- R102: the handlers of a mask: one for each bit that is set, on its pin; those that are cancelled: one for each bit that
is set, named by its kind (the model's choice, log 18). -/
def Obligations.RegistrationsFollowTheMask : Prop :=
  ∀ (mask : BitVec 5) (c : InitOperands),
    (∀ r : Registration, r ∈ registrations mask c ↔
      (r = ⟨c.pinA, .edge .aRise⟩ ∧ mask.getLsbD 0 = true) ∨ (r = ⟨c.pinA, .edge .aFall⟩ ∧ mask.getLsbD 1 = true) ∨
      (r = ⟨c.pinB, .edge .bRise⟩ ∧ mask.getLsbD 2 = true) ∨ (r = ⟨c.pinB, .edge .bFall⟩ ∧ mask.getLsbD 3 = true) ∨
      (r = ⟨c.btnPin, .button⟩ ∧ mask.getLsbD 4 = true)) ∧
    ∀ x : SourceCall, x ∈ cancellations mask ↔
      (x = .cancel (.edge .aRise) ∧ mask.getLsbD 0 = true) ∨ (x = .cancel (.edge .aFall) ∧ mask.getLsbD 1 = true) ∨
      (x = .cancel (.edge .bRise) ∧ mask.getLsbD 2 = true) ∨ (x = .cancel (.edge .bFall) ∧ mask.getLsbD 3 = true) ∨
      (x = .cancel .button ∧ mask.getLsbD 4 = true)

/-- R107, X1 to X3: where the spec gives INIT, READ_DIR and READ_BTN no meaning, each stops under its own name. -/
def Obligations.SessionOperationsOutOfPhaseAreRefused : Prop :=
  ∀ (c : InitOperands) (now : Nat) (s : State),
    (s.phase = .active → exec (.init c) s = .refused .initWhileActive) ∧
    (s.phase = .idle → exec .readDir s = .refused .readDirWhileIdle) ∧
    (s.phase = .idle → exec (.readBtn now) s = .refused .readBtnWhileIdle)

/-- R104: READ_DIR returns `dir` and clears it; a second one returns 0. -/
def Obligations.ReadDirReadsAndClears : Prop :=
  (∀ (m : Mode) (side : SideBand), decode (m.code ++ 0x20#8) side = .instr .readDir) ∧
  ∀ s : State,
    (s.phase = .idle → exec .readDir s = .refused .readDirWhileIdle) ∧
    (s.phase = .active →
      ∃ t, t = { s with dir := .zero, result := .direction s.dir, calls := [] } ∧
        exec .readDir s = .next t ∧
        exec .readDir t = .next { t with result := .direction .zero })

/-- R105, R93: READ_BTN returns the debounced level, 0 with no button, and writes no register; a second one with the
same `now` returns the same. -/
def Obligations.ReadBtnReturnsTheDebouncedLevel : Prop :=
  (∀ (m : Mode) (side : SideBand), decode (m.code ++ 0x30#8) side = .instr (.readBtn side.now)) ∧
  ∀ (now : Nat) (s : State),
    (s.phase = .idle → exec (.readBtn now) s = .refused .readBtnWhileIdle) ∧
    (s.phase = .active →
      ∃ t, t = { s with
          result := .level (if s.cfgBtnPin = s.params.pinNone then 0
            else if standsLongEnough s now then s.btnLevel else s.btnOut)
          calls := [] } ∧
        exec (.readBtn now) s = .next t ∧ exec (.readBtn now) t = .next t)

/-- R106: TEARDOWN completes in every state, returns OK, cancels every registered handler and leaves phase IDLE with
nothing enabled; in phase IDLE it changes nothing; a second one changes nothing. Of the other registers of a live
session nothing is said: they hold no defined value (R25, log 6). A handle is named by its kind (the model's choice,
log 18). -/
def Obligations.TeardownEndsTheSession : Prop :=
  (∀ (m : Mode) (side : SideBand), decode (m.code ++ 0x10#8) side = .instr .teardown) ∧
  ∀ s : State,
    ∃ t, exec .teardown s = .next t ∧ t.phase = .idle ∧ t.evEn = 0 ∧ t.result = .status .ok ∧
      t.calls = cancellations s.evEn ∧
      t.inbox = s.inbox ∧
      (s.phase = .idle → s.evEn = 0 → t = { s with result := .status .ok, calls := [] }) ∧
      exec .teardown t = .next { t with calls := [] }

/-- R106, R60: after TEARDOWN no sequence of handler operations changes a register. -/
def Obligations.HandlersCannotTouchAnIdleBlock : Prop :=
  ∀ (is : List Instr) (s : State),
    s.phase = .idle → (∀ i ∈ is, agentOf i = .handler) →
      ∃ t, execAll is s = some t ∧ t = { s with result := t.result, calls := t.calls }

/-- R107: `phase` moves IDLE to ACTIVE only by a successful INIT and ACTIVE to IDLE only by TEARDOWN. -/
def Obligations.PhaseMovesOnlyByInitAndTeardown : Prop :=
  ∀ (i : Instr) (s t : State), exec i s = .next t →
    (s.phase = .idle → t.phase = .active →
      ∃ c, i = .init c ∧ validOperands s.params c ∧ wantOf s.params c &&& ~~~c.regOk = 0 ∧ t.result = .status .ok) ∧
    (s.phase = .active → t.phase = .idle → i = .teardown)

/-! Whole-machine rules. -/

/-- R130, R26: the registers after power-on. -/
def Obligations.PowerOnRegistersAreZero : Prop :=
  State.reset.phase.code = 0 ∧ State.reset.evEn = 0 ∧ State.reset.cfgPinA = 0 ∧ State.reset.cfgPinB = 0 ∧
    State.reset.cfgBtnPin = 0 ∧ State.reset.cfgMode.code = 0 ∧ State.reset.cfgDelay = 0 ∧ State.reset.abAB = 0 ∧
    State.reset.tstate = 0 ∧ State.reset.lastDir.code = 0 ∧ State.reset.dir.code = 0 ∧ State.reset.btnOut = 0 ∧
    State.reset.btnLevel = 0 ∧ State.reset.btnT = 0

/-- R12: the session invariant holds after power-on. -/
def Obligations.SessionInvariantAtReset : Prop :=
  SessionInv State.reset

/-- R10, R12, R13, R14, R26, R35, R94: every step keeps the session invariant, at every width, whatever operation is applied. -/
def Obligations.StepKeepsTheSessionInvariant : Prop :=
  ∀ s t : State, SessionInv s → step s = .next t → SessionInv t

/-- R41, R10: from INIT to TEARDOWN no step changes the configuration or the enabled handlers. -/
def Obligations.ConfigurationIsFixedWithinASession : Prop :=
  ∀ s t : State, step s = .next t → s.phase = .active → t.phase = .active →
    t.cfgPinA = s.cfgPinA ∧ t.cfgPinB = s.cfgPinB ∧ t.cfgBtnPin = s.cfgBtnPin ∧ t.cfgMode = s.cfgMode ∧
      t.cfgDelay = s.cfgDelay ∧ t.evEn = s.evEn

/-- R23: what each agent's operations can write. A handler operation writes decoder and button registers and only sets
`dir`; a consumer operation writes nothing but `dir`, and only clears it. -/
def Obligations.AgentsWriteOnlyTheirRegisters : Prop :=
  ∀ (i : Instr) (s t : State), exec i s = .next t →
    (agentOf i = .handler →
      t = { s with
        abAB := t.abAB, tstate := t.tstate, lastDir := t.lastDir, dir := t.dir
        btnLevel := t.btnLevel, btnT := t.btnT, btnOut := t.btnOut, result := .none, calls := [] } ∧
      (t.dir = s.dir ∨ t.dir ≠ .zero)) ∧
    (agentOf i = .consumer →
      t = { s with dir := t.dir, result := t.result, calls := [] } ∧ (t.dir = s.dir ∨ t.dir = .zero))

/-- R98 (d), R124: the decoder's registers depend on nothing of the debouncer and the other way round: two states that
agree on one half still agree on it after the same operation. -/
def Obligations.DecoderAndDebouncerDoNotInterfere : Prop :=
  (∀ (i : Instr) (s s' t : State), decoderView s = decoderView s' → exec i s = .next t →
    ∃ t', exec i s' = .next t' ∧ decoderView t = decoderView t') ∧
  ∀ (i : Instr) (s s' t t' : State), buttonView s = buttonView s' →
    exec i s = .next t → exec i s' = .next t' → buttonView t = buttonView t'

/-- R38 (a), R135, R16: with no READ_DIR and no TEARDOWN in between, READ_DIR returns the last emission since `dir` was
cleared, or 0 when there was none. -/
def Obligations.ReadDirReturnsTheLastEmission : Prop :=
  ∀ (is : List Instr) (s t : State),
    s.phase = .active → s.dir = .zero → (∀ i ∈ is, i ≠ .readDir ∧ i ≠ .teardown) → execAll is s = some t →
      exec .readDir t =
        .next { t with dir := .zero, result := .direction ((emissions is s).getLast?.getD .zero), calls := [] }

/-- R40, R138: with READ_DIR ordered before an edge operation, READ_DIR returns the old value, the edge operation makes
the emission it would have made without it, and `dir` ends holding that emission, or 0 when there was none. -/
def Obligations.ReadThenEmitLosesNothing : Prop :=
  ∀ (i : Instr) (s t : State),
    s.phase = .active → edgeKindOf i ≠ none → exec i s = .next t →
      ∃ u v, exec .readDir s = .next u ∧ u.result = .direction s.dir ∧ exec i u = .next v ∧
        emissionOf i u v = emissionOf i s t ∧ v = { t with dir := (emissionOf i s t).getD .zero }

/-- R22 (b): the result-pending flag is 0 at reset, set by an emission and by nothing else among the edge operations,
kept by the button operations and by READ_BTN, and cleared by READ_DIR. -/
def Obligations.ResultPendingIsSticky : Prop :=
  resultPending State.reset = false ∧
  ∀ (i : Instr) (s t : State), exec i s = .next t →
    (edgeKindOf i ≠ none → resultPending t = (resultPending s || (emissionOf i s t).isSome)) ∧
    ((∃ l now, i = .btnEdge l now) ∨ (∃ now, i = .btnTick now) ∨ (∃ now, i = .readBtn now) →
      resultPending t = resultPending s) ∧
    (i = .readDir → resultPending t = false)
end

