-- ==== Sys2Proof/Laws/Operands.lean ====
section
/-! SUPPORT. What the operand forms compute: level normalisation, the widths, the elapsed time, and the decode key's parts. -/

namespace Sys2Proof

/-- A high reading normalises to 1 (R8). -/
theorem normLevel_of_high {v : Int} (h : 1 ≤ v) : normLevel v = 1 := if_pos h

/-- A reading that is not high normalises to 0 (R8). -/
theorem normLevel_of_not_high {v : Int} (h : ¬1 ≤ v) : normLevel v = 0 := if_neg h

/-- `Norm` is the identity on what a one-bit port delivers (R8). -/
@[simp] theorem normLevel_ofPort (l : Level) : normLevel (ofPort l) = l := by
  revert l; decide

/-- What a one-bit port delivers has an event-word bit. -/
@[simp] theorem levelWf_ofPort (l : Level) : levelWf (ofPort l) = true := by
  revert l; decide

/-- A level operand that has an event-word bit is what the port of its normalisation delivers. -/
theorem ofPort_normLevel {v : Int} (h : levelWf v = true) : ofPort (normLevel v) = v := by
  have hv : v = 0 ∨ v = 1 := by simpa [levelWf] using h
  rcases hv with rfl | rfl <;> decide

/-- Clamping a reading to 0 or 1 does not change its normalisation (R8, R113). -/
@[simp] theorem normLevel_nearest (v : Int) : normLevel (max 0 (min 1 v)) = normLevel v := by
  by_cases h : 1 ≤ v
  · rw [normLevel_of_high h, normLevel_of_high (by omega)]
  · rw [normLevel_of_not_high h, normLevel_of_not_high (by omega)]

/-- The code of a mode gives the mode back (R51). -/
@[simp] theorem Mode.ofCode_code (m : Mode) : Mode.ofCode m.code = m := by
  cases m <;> rfl

/-- Every 2-bit code is the code of its mode (R51). -/
@[simp] theorem Mode.code_ofCode (c : BitVec 2) : (Mode.ofCode c).code = c := by
  revert c; decide

/-- The upper part of a concatenation (R5). -/
theorem extract_append_upper {m n : Nat} (x : BitVec m) (y : BitVec n) : (x ++ y).extractLsb' n m = x := by
  ext i hi
  simp [BitVec.getLsbD_append, BitVec.getLsbD_eq_getElem, hi]

/-- The lower part of a concatenation (R5). -/
theorem extract_append_lower {m n : Nat} (x : BitVec m) (y : BitVec n) : (x ++ y).extractLsb' 0 n = y := by
  ext i hi
  simp [BitVec.getLsbD_append, BitVec.getLsbD_eq_getElem, hi]

/-- The mode bits of an event's key are the mode it is presented in (R45). -/
@[simp] theorem keyMode_eventKey (m : Mode) (w : BitVec 8) : keyMode (eventKey m w) = m :=
  (congrArg Mode.ofCode (extract_append_upper m.code w)).trans (Mode.ofCode_code m)

/-- The event word of an event's key is the word itself (R45). -/
@[simp] theorem keyWord_eventKey (m : Mode) (w : BitVec 8) : keyWord (eventKey m w) = w :=
  extract_append_lower m.code w

/-- A pin at its width is below 2^PIN_W (R4). -/
theorem Params.pin_lt (p : Params) (v : Nat) : p.pin v < 2 ^ p.pinW := Nat.mod_lt _ (Nat.two_pow_pos _)

/-- A time at its width is below 2^T_W (R4). -/
theorem Params.time_lt (p : Params) (v : Nat) : p.time v < 2 ^ p.tW := Nat.mod_lt _ (Nat.two_pow_pos _)

/-- A pin of the right width is left as it is. -/
theorem Params.pin_eq {p : Params} {v : Nat} (h : v < 2 ^ p.pinW) : p.pin v = v := Nat.mod_eq_of_lt h

/-- A time of the right width is left as it is. -/
theorem Params.time_eq {p : Params} {v : Nat} (h : v < 2 ^ p.tW) : p.time v = v := Nat.mod_eq_of_lt h

/-- Cutting a pin to its width twice is cutting it once. -/
@[simp] theorem Params.pin_pin (p : Params) (v : Nat) : p.pin (p.pin v) = p.pin v := Nat.mod_mod _ _

/-- Cutting a time to its width twice is cutting it once. -/
@[simp] theorem Params.time_time (p : Params) (v : Nat) : p.time (p.time v) = p.time v := Nat.mod_mod _ _

/-! INIT's operands at their widths, one lemma a field (R52). -/

@[simp] theorem InitOperands.atWidths_pinA (c : InitOperands) (p : Params) : (c.atWidths p).pinA = p.pin c.pinA := rfl
@[simp] theorem InitOperands.atWidths_pinB (c : InitOperands) (p : Params) : (c.atWidths p).pinB = p.pin c.pinB := rfl
@[simp] theorem InitOperands.atWidths_btnPin (c : InitOperands) (p : Params) :
    (c.atWidths p).btnPin = p.pin c.btnPin := rfl
@[simp] theorem InitOperands.atWidths_mode (c : InitOperands) (p : Params) : (c.atWidths p).mode = c.mode := rfl
@[simp] theorem InitOperands.atWidths_delay (c : InitOperands) (p : Params) :
    (c.atWidths p).delay = p.time c.delay := rfl
@[simp] theorem InitOperands.atWidths_regOk (c : InitOperands) (p : Params) : (c.atWidths p).regOk = c.regOk := rfl

/-- Cutting INIT's operands to their widths twice is cutting them once (R52). -/
@[simp] theorem InitOperands.atWidths_atWidths (c : InitOperands) (p : Params) :
    (c.atWidths p).atWidths p = c.atWidths p := by
  simp [InitOperands.atWidths]

/-- Operands of their R52 widths are left as they are. -/
theorem InitOperands.atWidths_eq {c : InitOperands} {p : Params} (h : c.wf p = true) : c.atWidths p = c := by
  simp only [InitOperands.wf, pinWf, timeWf, Bool.and_eq_true, decide_eq_true_eq] at h
  simp [InitOperands.atWidths, Params.pin_eq h.1.1.1, Params.pin_eq h.1.1.2, Params.pin_eq h.1.2, Params.time_eq h.2]

/-- The elapsed time in ticks (R57 (d)). -/
theorem Params.elapsed_eq (p : Params) (now t : Nat) : p.elapsed now t = Machine.ticksBetween p t now := by
  unfold Params.elapsed Machine.ticksBetween
  generalize hM : (2 : Nat) ^ p.tW = M
  have hpos : 0 < M := hM ▸ Nat.two_pow_pos _
  have hlt := Nat.mod_lt t hpos
  have hsum : ((now + M - t % M : Nat) : Int) = ((now : Int) - (t : Int) % (M : Int)) + M := by
    rw [← Int.natCast_mod]; omega
  have hcong : ((now : Int) - (t : Int)) % (M : Int) = ((now + M - t % M : Nat) : Int) % (M : Int) := by
    rw [hsum, Int.add_emod_right, Int.sub_emod_emod]
  rw [hcong, ← Int.natCast_mod, Int.toNat_natCast]

end Sys2Proof
end

