-- ==== Sys2Proof/Laws/State.lean ====
section
/-! SUPPORT. What each named update of the state leaves in each field: one lemma a field and update, so that no proof
unfolds a record update. -/

namespace Sys2Proof.Machine

/-- `ignore` ends the operation with no result (R6). -/
@[simp] theorem State.ignore_eq_finish (s : State) : s.ignore = s.finish .none [] := rfl

/-- `raise` ends the operation with the error's status (R6). -/
@[simp] theorem State.raise_eq_finish (s : State) (e : Status) (cs : List SourceCall) :
    s.raise e cs = s.finish (.status e) cs := rfl

/-! How an operation ends (R6). -/

@[simp] theorem State.finish_params (s : State) (r : Result) (cs : List SourceCall) :
    (s.finish r cs).params = s.params := rfl
@[simp] theorem State.finish_phase (s : State) (r : Result) (cs : List SourceCall) :
    (s.finish r cs).phase = s.phase := rfl
@[simp] theorem State.finish_evEn (s : State) (r : Result) (cs : List SourceCall) :
    (s.finish r cs).evEn = s.evEn := rfl
@[simp] theorem State.finish_cfgPinA (s : State) (r : Result) (cs : List SourceCall) :
    (s.finish r cs).cfgPinA = s.cfgPinA := rfl
@[simp] theorem State.finish_cfgPinB (s : State) (r : Result) (cs : List SourceCall) :
    (s.finish r cs).cfgPinB = s.cfgPinB := rfl
@[simp] theorem State.finish_cfgBtnPin (s : State) (r : Result) (cs : List SourceCall) :
    (s.finish r cs).cfgBtnPin = s.cfgBtnPin := rfl
@[simp] theorem State.finish_cfgMode (s : State) (r : Result) (cs : List SourceCall) :
    (s.finish r cs).cfgMode = s.cfgMode := rfl
@[simp] theorem State.finish_cfgDelay (s : State) (r : Result) (cs : List SourceCall) :
    (s.finish r cs).cfgDelay = s.cfgDelay := rfl
@[simp] theorem State.finish_abAB (s : State) (r : Result) (cs : List SourceCall) :
    (s.finish r cs).abAB = s.abAB := rfl
@[simp] theorem State.finish_tstate (s : State) (r : Result) (cs : List SourceCall) :
    (s.finish r cs).tstate = s.tstate := rfl
@[simp] theorem State.finish_lastDir (s : State) (r : Result) (cs : List SourceCall) :
    (s.finish r cs).lastDir = s.lastDir := rfl
@[simp] theorem State.finish_dir (s : State) (r : Result) (cs : List SourceCall) :
    (s.finish r cs).dir = s.dir := rfl
@[simp] theorem State.finish_btnOut (s : State) (r : Result) (cs : List SourceCall) :
    (s.finish r cs).btnOut = s.btnOut := rfl
@[simp] theorem State.finish_btnLevel (s : State) (r : Result) (cs : List SourceCall) :
    (s.finish r cs).btnLevel = s.btnLevel := rfl
@[simp] theorem State.finish_btnT (s : State) (r : Result) (cs : List SourceCall) :
    (s.finish r cs).btnT = s.btnT := rfl
@[simp] theorem State.finish_inbox (s : State) (r : Result) (cs : List SourceCall) :
    (s.finish r cs).inbox = s.inbox := rfl
@[simp] theorem State.finish_result (s : State) (r : Result) (cs : List SourceCall) :
    (s.finish r cs).result = r := rfl
@[simp] theorem State.finish_calls (s : State) (r : Result) (cs : List SourceCall) :
    (s.finish r cs).calls = cs := rfl
@[simp] theorem State.finish_draws (s : State) (r : Result) (cs : List SourceCall) :
    (s.finish r cs).draws = s.draws := rfl

/-! `abAB <- v` (R63). -/

@[simp] theorem State.setAbAB_params (s : State) (v : BitVec 4) : (s.setAbAB v).params = s.params := rfl
@[simp] theorem State.setAbAB_phase (s : State) (v : BitVec 4) : (s.setAbAB v).phase = s.phase := rfl
@[simp] theorem State.setAbAB_evEn (s : State) (v : BitVec 4) : (s.setAbAB v).evEn = s.evEn := rfl
@[simp] theorem State.setAbAB_cfgPinA (s : State) (v : BitVec 4) : (s.setAbAB v).cfgPinA = s.cfgPinA := rfl
@[simp] theorem State.setAbAB_cfgPinB (s : State) (v : BitVec 4) : (s.setAbAB v).cfgPinB = s.cfgPinB := rfl
@[simp] theorem State.setAbAB_cfgBtnPin (s : State) (v : BitVec 4) : (s.setAbAB v).cfgBtnPin = s.cfgBtnPin := rfl
@[simp] theorem State.setAbAB_cfgMode (s : State) (v : BitVec 4) : (s.setAbAB v).cfgMode = s.cfgMode := rfl
@[simp] theorem State.setAbAB_cfgDelay (s : State) (v : BitVec 4) : (s.setAbAB v).cfgDelay = s.cfgDelay := rfl
@[simp] theorem State.setAbAB_abAB (s : State) (v : BitVec 4) : (s.setAbAB v).abAB = v := rfl
@[simp] theorem State.setAbAB_tstate (s : State) (v : BitVec 4) : (s.setAbAB v).tstate = s.tstate := rfl
@[simp] theorem State.setAbAB_lastDir (s : State) (v : BitVec 4) : (s.setAbAB v).lastDir = s.lastDir := rfl
@[simp] theorem State.setAbAB_dir (s : State) (v : BitVec 4) : (s.setAbAB v).dir = s.dir := rfl
@[simp] theorem State.setAbAB_btnOut (s : State) (v : BitVec 4) : (s.setAbAB v).btnOut = s.btnOut := rfl
@[simp] theorem State.setAbAB_btnLevel (s : State) (v : BitVec 4) : (s.setAbAB v).btnLevel = s.btnLevel := rfl
@[simp] theorem State.setAbAB_btnT (s : State) (v : BitVec 4) : (s.setAbAB v).btnT = s.btnT := rfl
@[simp] theorem State.setAbAB_inbox (s : State) (v : BitVec 4) : (s.setAbAB v).inbox = s.inbox := rfl
@[simp] theorem State.setAbAB_result (s : State) (v : BitVec 4) : (s.setAbAB v).result = s.result := rfl
@[simp] theorem State.setAbAB_calls (s : State) (v : BitVec 4) : (s.setAbAB v).calls = s.calls := rfl
@[simp] theorem State.setAbAB_draws (s : State) (v : BitVec 4) : (s.setAbAB v).draws = s.draws := rfl

/-! `tstate <- v` (R63). -/

@[simp] theorem State.setTstate_params (s : State) (v : BitVec 4) : (s.setTstate v).params = s.params := rfl
@[simp] theorem State.setTstate_phase (s : State) (v : BitVec 4) : (s.setTstate v).phase = s.phase := rfl
@[simp] theorem State.setTstate_evEn (s : State) (v : BitVec 4) : (s.setTstate v).evEn = s.evEn := rfl
@[simp] theorem State.setTstate_cfgPinA (s : State) (v : BitVec 4) : (s.setTstate v).cfgPinA = s.cfgPinA := rfl
@[simp] theorem State.setTstate_cfgPinB (s : State) (v : BitVec 4) : (s.setTstate v).cfgPinB = s.cfgPinB := rfl
@[simp] theorem State.setTstate_cfgBtnPin (s : State) (v : BitVec 4) :
    (s.setTstate v).cfgBtnPin = s.cfgBtnPin := rfl
@[simp] theorem State.setTstate_cfgMode (s : State) (v : BitVec 4) : (s.setTstate v).cfgMode = s.cfgMode := rfl
@[simp] theorem State.setTstate_cfgDelay (s : State) (v : BitVec 4) : (s.setTstate v).cfgDelay = s.cfgDelay := rfl
@[simp] theorem State.setTstate_abAB (s : State) (v : BitVec 4) : (s.setTstate v).abAB = s.abAB := rfl
@[simp] theorem State.setTstate_tstate (s : State) (v : BitVec 4) : (s.setTstate v).tstate = v := rfl
@[simp] theorem State.setTstate_lastDir (s : State) (v : BitVec 4) : (s.setTstate v).lastDir = s.lastDir := rfl
@[simp] theorem State.setTstate_dir (s : State) (v : BitVec 4) : (s.setTstate v).dir = s.dir := rfl
@[simp] theorem State.setTstate_btnOut (s : State) (v : BitVec 4) : (s.setTstate v).btnOut = s.btnOut := rfl
@[simp] theorem State.setTstate_btnLevel (s : State) (v : BitVec 4) : (s.setTstate v).btnLevel = s.btnLevel := rfl
@[simp] theorem State.setTstate_btnT (s : State) (v : BitVec 4) : (s.setTstate v).btnT = s.btnT := rfl
@[simp] theorem State.setTstate_inbox (s : State) (v : BitVec 4) : (s.setTstate v).inbox = s.inbox := rfl
@[simp] theorem State.setTstate_result (s : State) (v : BitVec 4) : (s.setTstate v).result = s.result := rfl
@[simp] theorem State.setTstate_calls (s : State) (v : BitVec 4) : (s.setTstate v).calls = s.calls := rfl
@[simp] theorem State.setTstate_draws (s : State) (v : BitVec 4) : (s.setTstate v).draws = s.draws := rfl

/-! The write-back (R63). -/

@[simp] theorem State.writeBack_params (s : State) (d : Direction) : (s.writeBack d).params = s.params := rfl
@[simp] theorem State.writeBack_phase (s : State) (d : Direction) : (s.writeBack d).phase = s.phase := rfl
@[simp] theorem State.writeBack_evEn (s : State) (d : Direction) : (s.writeBack d).evEn = s.evEn := rfl
@[simp] theorem State.writeBack_cfgPinA (s : State) (d : Direction) : (s.writeBack d).cfgPinA = s.cfgPinA := rfl
@[simp] theorem State.writeBack_cfgPinB (s : State) (d : Direction) : (s.writeBack d).cfgPinB = s.cfgPinB := rfl
@[simp] theorem State.writeBack_cfgBtnPin (s : State) (d : Direction) :
    (s.writeBack d).cfgBtnPin = s.cfgBtnPin := rfl
@[simp] theorem State.writeBack_cfgMode (s : State) (d : Direction) : (s.writeBack d).cfgMode = s.cfgMode := rfl
@[simp] theorem State.writeBack_cfgDelay (s : State) (d : Direction) : (s.writeBack d).cfgDelay = s.cfgDelay := rfl
@[simp] theorem State.writeBack_abAB (s : State) (d : Direction) : (s.writeBack d).abAB = s.abAB := rfl
@[simp] theorem State.writeBack_tstate (s : State) (d : Direction) : (s.writeBack d).tstate = s.tstate := rfl
@[simp] theorem State.writeBack_lastDir (s : State) (d : Direction) : (s.writeBack d).lastDir = d := rfl
@[simp] theorem State.writeBack_dir (s : State) (d : Direction) :
    (s.writeBack d).dir = if d = .zero then s.dir else d := rfl
@[simp] theorem State.writeBack_btnOut (s : State) (d : Direction) : (s.writeBack d).btnOut = s.btnOut := rfl
@[simp] theorem State.writeBack_btnLevel (s : State) (d : Direction) : (s.writeBack d).btnLevel = s.btnLevel := rfl
@[simp] theorem State.writeBack_btnT (s : State) (d : Direction) : (s.writeBack d).btnT = s.btnT := rfl
@[simp] theorem State.writeBack_inbox (s : State) (d : Direction) : (s.writeBack d).inbox = s.inbox := rfl
@[simp] theorem State.writeBack_result (s : State) (d : Direction) : (s.writeBack d).result = s.result := rfl
@[simp] theorem State.writeBack_calls (s : State) (d : Direction) : (s.writeBack d).calls = s.calls := rfl
@[simp] theorem State.writeBack_draws (s : State) (d : Direction) : (s.writeBack d).draws = s.draws := rfl

/-! `Settle` (R91). -/

@[simp] theorem State.settle_params (s : State) (now : Nat) : (s.settle now).params = s.params := rfl
@[simp] theorem State.settle_phase (s : State) (now : Nat) : (s.settle now).phase = s.phase := rfl
@[simp] theorem State.settle_evEn (s : State) (now : Nat) : (s.settle now).evEn = s.evEn := rfl
@[simp] theorem State.settle_cfgPinA (s : State) (now : Nat) : (s.settle now).cfgPinA = s.cfgPinA := rfl
@[simp] theorem State.settle_cfgPinB (s : State) (now : Nat) : (s.settle now).cfgPinB = s.cfgPinB := rfl
@[simp] theorem State.settle_cfgBtnPin (s : State) (now : Nat) : (s.settle now).cfgBtnPin = s.cfgBtnPin := rfl
@[simp] theorem State.settle_cfgMode (s : State) (now : Nat) : (s.settle now).cfgMode = s.cfgMode := rfl
@[simp] theorem State.settle_cfgDelay (s : State) (now : Nat) : (s.settle now).cfgDelay = s.cfgDelay := rfl
@[simp] theorem State.settle_abAB (s : State) (now : Nat) : (s.settle now).abAB = s.abAB := rfl
@[simp] theorem State.settle_tstate (s : State) (now : Nat) : (s.settle now).tstate = s.tstate := rfl
@[simp] theorem State.settle_lastDir (s : State) (now : Nat) : (s.settle now).lastDir = s.lastDir := rfl
@[simp] theorem State.settle_dir (s : State) (now : Nat) : (s.settle now).dir = s.dir := rfl
@[simp] theorem State.settle_btnOut (s : State) (now : Nat) :
    (s.settle now).btnOut = if s.settles now then s.btnLevel else s.btnOut := rfl
@[simp] theorem State.settle_btnLevel (s : State) (now : Nat) : (s.settle now).btnLevel = s.btnLevel := rfl
@[simp] theorem State.settle_btnT (s : State) (now : Nat) : (s.settle now).btnT = s.btnT := rfl
@[simp] theorem State.settle_inbox (s : State) (now : Nat) : (s.settle now).inbox = s.inbox := rfl
@[simp] theorem State.settle_result (s : State) (now : Nat) : (s.settle now).result = s.result := rfl
@[simp] theorem State.settle_calls (s : State) (now : Nat) : (s.settle now).calls = s.calls := rfl
@[simp] theorem State.settle_draws (s : State) (now : Nat) : (s.settle now).draws = s.draws := rfl

/-! Recording a button edge (R90). -/

@[simp] theorem State.recordButton_params (s : State) (l : Level) (now : Nat) :
    (s.recordButton l now).params = s.params := rfl
@[simp] theorem State.recordButton_phase (s : State) (l : Level) (now : Nat) :
    (s.recordButton l now).phase = s.phase := rfl
@[simp] theorem State.recordButton_evEn (s : State) (l : Level) (now : Nat) :
    (s.recordButton l now).evEn = s.evEn := rfl
@[simp] theorem State.recordButton_cfgPinA (s : State) (l : Level) (now : Nat) :
    (s.recordButton l now).cfgPinA = s.cfgPinA := rfl
@[simp] theorem State.recordButton_cfgPinB (s : State) (l : Level) (now : Nat) :
    (s.recordButton l now).cfgPinB = s.cfgPinB := rfl
@[simp] theorem State.recordButton_cfgBtnPin (s : State) (l : Level) (now : Nat) :
    (s.recordButton l now).cfgBtnPin = s.cfgBtnPin := rfl
@[simp] theorem State.recordButton_cfgMode (s : State) (l : Level) (now : Nat) :
    (s.recordButton l now).cfgMode = s.cfgMode := rfl
@[simp] theorem State.recordButton_cfgDelay (s : State) (l : Level) (now : Nat) :
    (s.recordButton l now).cfgDelay = s.cfgDelay := rfl
@[simp] theorem State.recordButton_abAB (s : State) (l : Level) (now : Nat) :
    (s.recordButton l now).abAB = s.abAB := rfl
@[simp] theorem State.recordButton_tstate (s : State) (l : Level) (now : Nat) :
    (s.recordButton l now).tstate = s.tstate := rfl
@[simp] theorem State.recordButton_lastDir (s : State) (l : Level) (now : Nat) :
    (s.recordButton l now).lastDir = s.lastDir := rfl
@[simp] theorem State.recordButton_dir (s : State) (l : Level) (now : Nat) :
    (s.recordButton l now).dir = s.dir := rfl
@[simp] theorem State.recordButton_btnOut (s : State) (l : Level) (now : Nat) :
    (s.recordButton l now).btnOut = s.btnOut := rfl
@[simp] theorem State.recordButton_btnLevel (s : State) (l : Level) (now : Nat) :
    (s.recordButton l now).btnLevel = l := rfl
@[simp] theorem State.recordButton_btnT (s : State) (l : Level) (now : Nat) :
    (s.recordButton l now).btnT = s.params.time now := rfl
@[simp] theorem State.recordButton_inbox (s : State) (l : Level) (now : Nat) :
    (s.recordButton l now).inbox = s.inbox := rfl
@[simp] theorem State.recordButton_result (s : State) (l : Level) (now : Nat) :
    (s.recordButton l now).result = s.result := rfl
@[simp] theorem State.recordButton_calls (s : State) (l : Level) (now : Nat) :
    (s.recordButton l now).calls = s.calls := rfl
@[simp] theorem State.recordButton_draws (s : State) (l : Level) (now : Nat) :
    (s.recordButton l now).draws = s.draws := rfl

/-! `dir <- 0` (R104). -/

@[simp] theorem State.clearDir_params (s : State) : (s.clearDir).params = s.params := rfl
@[simp] theorem State.clearDir_phase (s : State) : (s.clearDir).phase = s.phase := rfl
@[simp] theorem State.clearDir_evEn (s : State) : (s.clearDir).evEn = s.evEn := rfl
@[simp] theorem State.clearDir_cfgPinA (s : State) : (s.clearDir).cfgPinA = s.cfgPinA := rfl
@[simp] theorem State.clearDir_cfgPinB (s : State) : (s.clearDir).cfgPinB = s.cfgPinB := rfl
@[simp] theorem State.clearDir_cfgBtnPin (s : State) : (s.clearDir).cfgBtnPin = s.cfgBtnPin := rfl
@[simp] theorem State.clearDir_cfgMode (s : State) : (s.clearDir).cfgMode = s.cfgMode := rfl
@[simp] theorem State.clearDir_cfgDelay (s : State) : (s.clearDir).cfgDelay = s.cfgDelay := rfl
@[simp] theorem State.clearDir_abAB (s : State) : (s.clearDir).abAB = s.abAB := rfl
@[simp] theorem State.clearDir_tstate (s : State) : (s.clearDir).tstate = s.tstate := rfl
@[simp] theorem State.clearDir_lastDir (s : State) : (s.clearDir).lastDir = s.lastDir := rfl
@[simp] theorem State.clearDir_dir (s : State) : (s.clearDir).dir = .zero := rfl
@[simp] theorem State.clearDir_btnOut (s : State) : (s.clearDir).btnOut = s.btnOut := rfl
@[simp] theorem State.clearDir_btnLevel (s : State) : (s.clearDir).btnLevel = s.btnLevel := rfl
@[simp] theorem State.clearDir_btnT (s : State) : (s.clearDir).btnT = s.btnT := rfl
@[simp] theorem State.clearDir_inbox (s : State) : (s.clearDir).inbox = s.inbox := rfl
@[simp] theorem State.clearDir_result (s : State) : (s.clearDir).result = s.result := rfl
@[simp] theorem State.clearDir_calls (s : State) : (s.clearDir).calls = s.calls := rfl
@[simp] theorem State.clearDir_draws (s : State) : (s.clearDir).draws = s.draws := rfl

/-! INIT's step 3 (R100). -/

@[simp] theorem State.openSession_params (s : State) (c : InitOperands) (m : Mode) (want : BitVec 5) :
    (s.openSession c m want).params = s.params := rfl
@[simp] theorem State.openSession_phase (s : State) (c : InitOperands) (m : Mode) (want : BitVec 5) :
    (s.openSession c m want).phase = .active := rfl
@[simp] theorem State.openSession_evEn (s : State) (c : InitOperands) (m : Mode) (want : BitVec 5) :
    (s.openSession c m want).evEn = want := rfl
@[simp] theorem State.openSession_cfgPinA (s : State) (c : InitOperands) (m : Mode) (want : BitVec 5) :
    (s.openSession c m want).cfgPinA = c.pinA := rfl
@[simp] theorem State.openSession_cfgPinB (s : State) (c : InitOperands) (m : Mode) (want : BitVec 5) :
    (s.openSession c m want).cfgPinB = c.pinB := rfl
@[simp] theorem State.openSession_cfgBtnPin (s : State) (c : InitOperands) (m : Mode) (want : BitVec 5) :
    (s.openSession c m want).cfgBtnPin = c.btnPin := rfl
@[simp] theorem State.openSession_cfgMode (s : State) (c : InitOperands) (m : Mode) (want : BitVec 5) :
    (s.openSession c m want).cfgMode = m := rfl
@[simp] theorem State.openSession_cfgDelay (s : State) (c : InitOperands) (m : Mode) (want : BitVec 5) :
    (s.openSession c m want).cfgDelay = c.delay := rfl
@[simp] theorem State.openSession_abAB (s : State) (c : InitOperands) (m : Mode) (want : BitVec 5) :
    (s.openSession c m want).abAB = 0 := rfl
@[simp] theorem State.openSession_tstate (s : State) (c : InitOperands) (m : Mode) (want : BitVec 5) :
    (s.openSession c m want).tstate = 0 := rfl
@[simp] theorem State.openSession_lastDir (s : State) (c : InitOperands) (m : Mode) (want : BitVec 5) :
    (s.openSession c m want).lastDir = .zero := rfl
@[simp] theorem State.openSession_dir (s : State) (c : InitOperands) (m : Mode) (want : BitVec 5) :
    (s.openSession c m want).dir = .zero := rfl
@[simp] theorem State.openSession_btnOut (s : State) (c : InitOperands) (m : Mode) (want : BitVec 5) :
    (s.openSession c m want).btnOut = 0 := rfl
@[simp] theorem State.openSession_btnLevel (s : State) (c : InitOperands) (m : Mode) (want : BitVec 5) :
    (s.openSession c m want).btnLevel = 0 := rfl
@[simp] theorem State.openSession_btnT (s : State) (c : InitOperands) (m : Mode) (want : BitVec 5) :
    (s.openSession c m want).btnT = 0 := rfl
@[simp] theorem State.openSession_inbox (s : State) (c : InitOperands) (m : Mode) (want : BitVec 5) :
    (s.openSession c m want).inbox = s.inbox := rfl
@[simp] theorem State.openSession_result (s : State) (c : InitOperands) (m : Mode) (want : BitVec 5) :
    (s.openSession c m want).result = s.result := rfl
@[simp] theorem State.openSession_calls (s : State) (c : InitOperands) (m : Mode) (want : BitVec 5) :
    (s.openSession c m want).calls = s.calls := rfl
@[simp] theorem State.openSession_draws (s : State) (c : InitOperands) (m : Mode) (want : BitVec 5) :
    (s.openSession c m want).draws = s.draws := rfl

/-! The undefined registers after TEARDOWN (R25). -/

@[simp] theorem State.tear_params (s : State) : (s.tear).params = s.params := rfl
@[simp] theorem State.tear_phase (s : State) : (s.tear).phase = s.phase := rfl
@[simp] theorem State.tear_evEn (s : State) : (s.tear).evEn = s.evEn := rfl
@[simp] theorem State.tear_cfgPinA (s : State) : (s.tear).cfgPinA = s.params.pin (Config.torn s.draws).cfgPinA := rfl
@[simp] theorem State.tear_cfgPinB (s : State) : (s.tear).cfgPinB = s.params.pin (Config.torn s.draws).cfgPinB := rfl
@[simp] theorem State.tear_cfgBtnPin (s : State) : (s.tear).cfgBtnPin = s.params.pin (Config.torn s.draws).cfgBtnPin := rfl
@[simp] theorem State.tear_cfgMode (s : State) : (s.tear).cfgMode = (Config.torn s.draws).cfgMode := rfl
@[simp] theorem State.tear_cfgDelay (s : State) : (s.tear).cfgDelay = s.params.time (Config.torn s.draws).cfgDelay := rfl
@[simp] theorem State.tear_abAB (s : State) : (s.tear).abAB = (Config.torn s.draws).abAB := rfl
@[simp] theorem State.tear_tstate (s : State) : (s.tear).tstate = (Config.torn s.draws).tstate := rfl
@[simp] theorem State.tear_lastDir (s : State) : (s.tear).lastDir = (Config.torn s.draws).lastDir := rfl
@[simp] theorem State.tear_dir (s : State) : (s.tear).dir = (Config.torn s.draws).dir := rfl
@[simp] theorem State.tear_btnOut (s : State) : (s.tear).btnOut = (Config.torn s.draws).btnOut := rfl
@[simp] theorem State.tear_btnLevel (s : State) : (s.tear).btnLevel = (Config.torn s.draws).btnLevel := rfl
@[simp] theorem State.tear_btnT (s : State) : (s.tear).btnT = s.params.time (Config.torn s.draws).btnT := rfl
@[simp] theorem State.tear_inbox (s : State) : (s.tear).inbox = s.inbox := rfl
@[simp] theorem State.tear_result (s : State) : (s.tear).result = s.result := rfl
@[simp] theorem State.tear_calls (s : State) : (s.tear).calls = s.calls := rfl
@[simp] theorem State.tear_draws (s : State) : (s.tear).draws = s.draws + 1 := rfl

/-! `ev_en <- 0; phase <- IDLE` (R106). -/

@[simp] theorem State.closeSession_params (s : State) : (s.closeSession).params = s.params := rfl
@[simp] theorem State.closeSession_phase (s : State) : (s.closeSession).phase = .idle := rfl
@[simp] theorem State.closeSession_evEn (s : State) : (s.closeSession).evEn = 0 := rfl
@[simp] theorem State.closeSession_cfgPinA (s : State) : (s.closeSession).cfgPinA = s.cfgPinA := rfl
@[simp] theorem State.closeSession_cfgPinB (s : State) : (s.closeSession).cfgPinB = s.cfgPinB := rfl
@[simp] theorem State.closeSession_cfgBtnPin (s : State) : (s.closeSession).cfgBtnPin = s.cfgBtnPin := rfl
@[simp] theorem State.closeSession_cfgMode (s : State) : (s.closeSession).cfgMode = s.cfgMode := rfl
@[simp] theorem State.closeSession_cfgDelay (s : State) : (s.closeSession).cfgDelay = s.cfgDelay := rfl
@[simp] theorem State.closeSession_abAB (s : State) : (s.closeSession).abAB = s.abAB := rfl
@[simp] theorem State.closeSession_tstate (s : State) : (s.closeSession).tstate = s.tstate := rfl
@[simp] theorem State.closeSession_lastDir (s : State) : (s.closeSession).lastDir = s.lastDir := rfl
@[simp] theorem State.closeSession_dir (s : State) : (s.closeSession).dir = s.dir := rfl
@[simp] theorem State.closeSession_btnOut (s : State) : (s.closeSession).btnOut = s.btnOut := rfl
@[simp] theorem State.closeSession_btnLevel (s : State) : (s.closeSession).btnLevel = s.btnLevel := rfl
@[simp] theorem State.closeSession_btnT (s : State) : (s.closeSession).btnT = s.btnT := rfl
@[simp] theorem State.closeSession_inbox (s : State) : (s.closeSession).inbox = s.inbox := rfl
@[simp] theorem State.closeSession_result (s : State) : (s.closeSession).result = s.result := rfl
@[simp] theorem State.closeSession_calls (s : State) : (s.closeSession).calls = s.calls := rfl
@[simp] theorem State.closeSession_draws (s : State) : (s.closeSession).draws = s.draws := rfl

end Sys2Proof.Machine
end

