-- ==== Sys2Proof/Laws/Ops.lean ====
section
/-! SUPPORT. What each shared operation can do, said once: acceptance, the trigger, the decodes of the four modes, and
`Settle`. -/

namespace Sys2Proof.Machine

/-- Acceptance, spelled out (R60, R90). -/
theorem State.accepts_iff (s : State) (k : HandlerKind) :
    s.accepts k = true ↔ s.phase = .active ∧ s.evEn.getLsbD k.bit = true := by
  simp [State.accepts]

/-- A trigger that is not accepted is ignored (R60). -/
theorem trigger_of_not_accepts {k : EdgeKind} {dec : State → Option (Direction × State)} {s : State}
    (h : ¬s.accepts (.edge k) = true) : trigger k dec s = .next (s.finish .none []) := by
  simp [trigger, h]

/-- An accepted trigger whose decode has a row writes back its direction (R62, R63). -/
theorem trigger_of_some {k : EdgeKind} {dec : State → Option (Direction × State)} {s s' : State} {d : Direction}
    (h : s.accepts (.edge k) = true) (hd : dec s = some (d, s')) :
    trigger k dec s = .next ((s'.writeBack d).finish .none []) := by
  simp [trigger, h, hd]

/-- An accepted trigger whose table has no row stops by name (R35). -/
theorem trigger_of_none {k : EdgeKind} {dec : State → Option (Direction × State)} {s : State}
    (h : s.accepts (.edge k) = true) (hd : dec s = none) : trigger k dec s = .refused .rowOutOfRange := by
  simp [trigger, h, hd]

/-- Everything a trigger that answers a next state can have done: it was ignored, or it decoded and wrote back. -/
theorem trigger_next {k : EdgeKind} {dec : State → Option (Direction × State)} {s t : State}
    (h : trigger k dec s = .next t) :
    (s.accepts (.edge k) = false ∧ t = s.finish .none []) ∨
      ∃ d s', s.accepts (.edge k) = true ∧ dec s = some (d, s') ∧ t = (s'.writeBack d).finish .none [] := by
  unfold trigger at h
  split at h
  next ha =>
    split at h
    next d s' hd => exact .inr ⟨d, s', ha, hd, by injection h with h; exact h.symm⟩
    next => cases h
  next ha => exact .inl ⟨by simpa using ha, by injection h with h; exact h.symm⟩

/-- The decode of a mode (R62). -/
def runMode (m : Mode) (a b : Int) : State → Option (Direction × State) :=
  match m with
  | .singleEdge => runSe a b
  | .lookupTable => runLut a b
  | .halfStep => runHs a b
  | .fullStep => runFs a b

/-- All sixteen edge rows: the trigger of the row's kind with the decode of the row's mode (R62, R65 to R68). -/
theorem exec_edgeInstr (k : EdgeKind) (m : Mode) (a b : Int) (s : State) :
    exec (edgeInstr k m a b) s = trigger k (runMode m a b) s := by
  cases k <;> cases m <;> rfl

/-- What the decode of a mode changes in the state: `abAB` in LookupTable, `tstate` in HalfStep and FullStep (R63). -/
theorem runMode_some {m : Mode} {a b : Int} {s s' : State} {d : Direction} (h : runMode m a b s = some (d, s')) :
    (m = .singleEdge ∧ d = decodeSe (normLevel b) ∧ s' = s) ∨
      (m = .lookupTable ∧ (d, s'.abAB) = decodeLut s.abAB (normLevel a) (normLevel b) ∧ s' = s.setAbAB s'.abAB) ∨
      (m = .halfStep ∧ decodeHs s.tstate (normLevel a) (normLevel b) = some (d, s'.tstate) ∧
        s' = s.setTstate s'.tstate) ∨
      (m = .fullStep ∧ decodeFs s.tstate (normLevel a) (normLevel b) = some (d, s'.tstate) ∧
        s' = s.setTstate s'.tstate) := by
  cases m
  · simp only [runMode, runSe, Option.some.injEq, Prod.mk.injEq] at h
    exact .inl ⟨rfl, h.1.symm, h.2.symm⟩
  · simp only [runMode, runLut, Option.some.injEq, Prod.mk.injEq] at h
    obtain ⟨rfl, rfl⟩ := h
    exact .inr (.inl ⟨rfl, rfl, rfl⟩)
  · simp only [runMode, runHs, Option.map_eq_some_iff, Prod.mk.injEq] at h
    obtain ⟨r, hr, rfl, rfl⟩ := h
    exact .inr (.inr (.inl ⟨rfl, hr, rfl⟩))
  · simp only [runMode, runFs, Option.map_eq_some_iff, Prod.mk.injEq] at h
    obtain ⟨r, hr, rfl, rfl⟩ := h
    exact .inr (.inr (.inr ⟨rfl, hr, rfl⟩))

/-- Every instruction is one of the six mode-independent ones or an edge row. -/
theorem instr_cases (i : Instr) :
    (∃ c, i = .init c) ∨ i = .teardown ∨ i = .readDir ∨ (∃ now, i = .readBtn now) ∨
      (∃ k m a b, i = edgeInstr k m a b) ∨ (∃ l now, i = .btnEdge l now) ∨ ∃ now, i = .btnTick now := by
  cases i
  case init c => exact .inl ⟨c, rfl⟩
  case teardown => exact .inr (.inl rfl)
  case readDir => exact .inr (.inr (.inl rfl))
  case readBtn now => exact .inr (.inr (.inr (.inl ⟨now, rfl⟩)))
  case btnEdge l now => exact .inr (.inr (.inr (.inr (.inr (.inl ⟨l, now, rfl⟩)))))
  case btnTick now => exact .inr (.inr (.inr (.inr (.inr (.inr ⟨now, rfl⟩)))))
  all_goals refine .inr (.inr (.inr (.inr (.inl ?_))))
  case edgeARiseSe a b => exact ⟨.aRise, .singleEdge, a, b, rfl⟩
  case edgeARiseLut a b => exact ⟨.aRise, .lookupTable, a, b, rfl⟩
  case edgeARiseHs a b => exact ⟨.aRise, .halfStep, a, b, rfl⟩
  case edgeARiseFs a b => exact ⟨.aRise, .fullStep, a, b, rfl⟩
  case edgeAFallSe a b => exact ⟨.aFall, .singleEdge, a, b, rfl⟩
  case edgeAFallLut a b => exact ⟨.aFall, .lookupTable, a, b, rfl⟩
  case edgeAFallHs a b => exact ⟨.aFall, .halfStep, a, b, rfl⟩
  case edgeAFallFs a b => exact ⟨.aFall, .fullStep, a, b, rfl⟩
  case edgeBRiseSe a b => exact ⟨.bRise, .singleEdge, a, b, rfl⟩
  case edgeBRiseLut a b => exact ⟨.bRise, .lookupTable, a, b, rfl⟩
  case edgeBRiseHs a b => exact ⟨.bRise, .halfStep, a, b, rfl⟩
  case edgeBRiseFs a b => exact ⟨.bRise, .fullStep, a, b, rfl⟩
  case edgeBFallSe a b => exact ⟨.bFall, .singleEdge, a, b, rfl⟩
  case edgeBFallLut a b => exact ⟨.bFall, .lookupTable, a, b, rfl⟩
  case edgeBFallHs a b => exact ⟨.bFall, .halfStep, a, b, rfl⟩
  case edgeBFallFs a b => exact ⟨.bFall, .fullStep, a, b, rfl⟩

/-- The kind of an edge row. -/
@[simp] theorem edgeKindOf_edgeInstr (k : EdgeKind) (m : Mode) (a b : Int) :
    edgeKindOf (edgeInstr k m a b) = some k := by
  cases k <;> cases m <;> rfl

/-- Edge operations are applied by the handler context (R46). -/
@[simp] theorem agentOf_edgeInstr (k : EdgeKind) (m : Mode) (a b : Int) :
    agentOf (edgeInstr k m a b) = .handler := by
  cases k <;> cases m <;> rfl

/-- The mode of an edge row is determined by the row. -/
theorem edgeInstr_mode_inj {j k : EdgeKind} {m n : Mode} {a b c d : Int}
    (h : edgeInstr j m a b = edgeInstr k n c d) : m = n := by
  revert h
  cases j <;> cases m <;> cases k <;> cases n <;> simp [edgeInstr]

/-- The HalfStep decode has a row exactly up to 5, and stays there (R35). -/
theorem decodeHs_range (r : BitVec 4) (a b : Level) :
    if r.toNat ≤ 5 then ∃ d n, decodeHs r a b = some (d, n) ∧ n.toNat ≤ 5 else decodeHs r a b = none := by
  have key : ∀ (r : BitVec 4) (a b : Level),
      (if r.toNat ≤ 5 then ((decodeHs r a b).any fun p => p.2.toNat ≤ 5) = true else decodeHs r a b = none) := by
    decide
  have := key r a b
  split
  next h =>
    rw [if_pos h] at this
    cases hp : decodeHs r a b with
    | none => simp [hp] at this
    | some p => exact ⟨p.1, p.2, rfl, by simpa [hp] using this⟩
  next h => rwa [if_neg h] at this

/-- The FullStep decode has a row exactly up to 6, and stays there (R35). -/
theorem decodeFs_range (r : BitVec 4) (a b : Level) :
    if r.toNat ≤ 6 then ∃ d n, decodeFs r a b = some (d, n) ∧ n.toNat ≤ 6 else decodeFs r a b = none := by
  have key : ∀ (r : BitVec 4) (a b : Level),
      (if r.toNat ≤ 6 then ((decodeFs r a b).any fun p => p.2.toNat ≤ 6) = true else decodeFs r a b = none) := by
    decide
  have := key r a b
  split
  next h =>
    rw [if_pos h] at this
    cases hp : decodeFs r a b with
    | none => simp [hp] at this
    | some p => exact ⟨p.1, p.2, rfl, by simpa [hp] using this⟩
  next h => rwa [if_neg h] at this

/-- `Settle`'s condition in ticks (R91). -/
theorem State.settles_iff (s : State) (now : Nat) : s.settles now = true ↔ standsLongEnough s now := by
  simp [State.settles, standsLongEnough, Params.elapsed_eq]

/-- A choice on `Settle`'s condition, in ticks (R91). -/
theorem State.ite_settles (s : State) (now : Nat) {α : Type} (x y : α) :
    (if s.settles now = true then x else y) = if standsLongEnough s now then x else y :=
  if_congr (s.settles_iff now) rfl rfl

/-- `Debounced(now)` is the value `btn_out` has after `Settle(now)` (R93). -/
theorem State.debounced_eq_settle (s : State) (now : Nat) : s.debounced now = (s.settle now).btnOut := rfl

/-- A button is attached exactly when its pin is not the sentinel (R94). -/
theorem State.hasButton_iff (s : State) : s.hasButton = true ↔ s.cfgBtnPin ≠ s.params.pinNone := by
  simp [State.hasButton]

/-- No handler is registered by an empty mask (R102). -/
@[simp] theorem registrations_zero (c : InitOperands) : registrations 0#5 c = [] := by
  simp [registrations, handlerKinds]

/-- Nothing is cancelled for an empty mask (R106). -/
@[simp] theorem cancellations_zero : cancellations 0#5 = [] := by
  simp [cancellations, handlerKinds]

/-- The kinds of a mask are those whose bit is set (R12). -/
theorem mem_handlerKinds (mask : BitVec 5) (k : HandlerKind) :
    k ∈ handlerKinds mask ↔ mask.getLsbD k.bit = true := by
  rcases k with (_ | _ | _ | _) | _ <;> simp [handlerKinds]

/-- INIT in phase IDLE runs, on its operands at their widths (R52, R107). -/
theorem exec_init_of_idle {s : State} (c : InitOperands) (h : s.phase = .idle) :
    exec (.init c) s = .next (initSession (c.atWidths s.params) s) := by
  simp [exec, execInit, h]

/-- `want` as R100 computes it from the operands. -/
theorem wantedHandlers_ofCode {p : Params} {c : InitOperands} (h : c.mode.toNat ≤ 3) :
    wantedHandlers (Mode.ofCode (c.mode.extractLsb' 0 2)) (p.pin c.btnPin != p.pinNone) = wantOf p c := by
  have key : ∀ m : BitVec 8, m.toNat ≤ 3 → (Mode.ofCode (m.extractLsb' 0 2) = .singleEdge ↔ m = 0) := by decide
  simp only [wantedHandlers, wantOf, key c.mode h, bne_iff_ne]

/-- The pins are acceptable exactly when none of (a) to (c) of R101 holds. -/
theorem pinsCollide_eq_false_iff (c : InitOperands) (n : Nat) :
    pinsCollide c n = false ↔
      c.pinA ≠ n ∧ c.pinB ≠ n ∧ c.pinA ≠ c.pinB ∧ (c.btnPin = n ∨ (c.btnPin ≠ c.pinA ∧ c.btnPin ≠ c.pinB)) := by
  simp only [pinsCollide, Bool.or_eq_false_iff, Bool.and_eq_false_imp, beq_eq_false_iff_ne, bne_iff_ne]
  constructor
  · rintro ⟨⟨⟨h1, h2⟩, h3⟩, h4⟩
    exact ⟨h1, h2, h3, (Classical.em _).imp_right h4⟩
  · rintro ⟨h1, h2, h3, h4⟩
    exact ⟨⟨⟨h1, h2⟩, h3⟩, fun hb => h4.resolve_left hb⟩

/-- Everything INIT in phase IDLE can do: raise ConfigurationError, raise RegistrationError, or open the session. -/
theorem initSession_cases (c : InitOperands) (s : State) :
    (initSession c s = s.finish (.status .configurationError) []) ∨
      (∃ cs, initSession c s = s.finish (.status .registrationError) cs) ∨
      ∃ m cs, Mode.ofOperand c.mode = some m ∧ pinsCollide c s.params.pinNone = false ∧
        wantedHandlers m (c.btnPin != s.params.pinNone) &&& ~~~c.regOk = 0 ∧
        initSession c s =
          (s.openSession c m (wantedHandlers m (c.btnPin != s.params.pinNone))).finish (.status .ok) cs := by
  unfold initSession
  split
  next => exact .inl rfl
  next m hm =>
    split
    next => exact .inl rfl
    next hp =>
      dsimp only
      split
      next => exact .inr (.inl ⟨_, rfl⟩)
      next hw => exact .inr (.inr ⟨m, _, hm, by simpa using hp, by simpa using hw, rfl⟩)

/-- What an input decodes to, when it decodes to an edge row: a row of the current mode. -/
theorem decodeInput_edge {m : Mode} {x : Input} {i : Instr} (h : decodeInput m x = .instr i) :
    (∃ k a b, i = edgeInstr k m a b) ∨ edgeKindOf i = none := by
  have hE : ∀ {k w}, decodeE m k w = .instr i → ∃ k a b, i = edgeInstr k m a b := by
    intro k w h
    unfold decodeE at h
    split at h <;> cases h
    exact ⟨_, _, _, rfl⟩
  cases x with
  | event w side =>
    simp only [decodeInput, decode, keyMode_eventKey, keyWord_eventKey, decodeWord] at h
    split at h
    all_goals first
      | exact .inl (hE h)
      | (simp only [decodeN, decodeB] at h; split at h <;> cases h; exact .inr rfl)
      | cases h
  | edgeNotice k a b => cases h; exact .inl ⟨_, _, _, rfl⟩
  | buttonNotice l now => cases h; exact .inr rfl

/-- Everything a step that answers a next state can have done: nothing, or one decoded operation. -/
theorem step_next {s t : State} (h : step s = .next t) :
    (s.inbox = [] ∧ t = s) ∨
      ∃ x rest i, s.inbox = x :: rest ∧ decodeInput s.cfgMode x = .instr i ∧
        exec i { s with inbox := rest } = .next t := by
  unfold step State.takeInput at h
  cases hin : s.inbox with
  | nil => rw [hin] at h; cases h; exact .inl ⟨rfl, rfl⟩
  | cons x rest =>
    rw [hin] at h
    dsimp only at h
    split at h
    next i hi => exact .inr ⟨x, rest, i, rfl, hi, h⟩
    next => cases h

end Sys2Proof.Machine
end

