-- ==== Sys2Proof/Laws/PerInstr.lean ====
section
/-! SUPPORT. One lemma per constructor of Instr: the family EventWord says that an instruction's event word has one of
the operation codes of R46 and no reserved argument bit (R45, R53), whatever its operands are. -/

namespace Sys2Proof.Laws.EventWord

/-- The word has an operation code of R46 and its reserved argument bits are 0 (R53). -/
def wordFits (w : BitVec 8) : Bool :=
  match w.toNat / 16 with
  | 0 | 1 | 2 | 3 | 9 => w &&& 0b1111 == 0
  | 4 | 5 | 6 | 7 => w &&& 0b1100 == 0
  | 8 => w &&& 0b1110 == 0
  | _ => false

/-- The family's statement. -/
def Statement (i : Instr) : Prop := wordFits i.word = true

/-- Format E words fit for the four edge codes (R45). -/
theorem wordE_fits (op : BitVec 4) (a b : Int) (h : 4 ≤ op.toNat ∧ op.toNat ≤ 7) : wordFits (wordE op a b) = true := by
  have key : ∀ (op : BitVec 4) (x y : Level), 4 ≤ op.toNat ∧ op.toNat ≤ 7 →
      wordFits (op ++ 0b00#2 ++ x ++ y) = true := by decide
  exact key op (normLevel a) (normLevel b) h

/-- Format N words fit for the six codes without an argument (R45). -/
theorem wordN_fits (op : BitVec 4) (h : op.toNat ≤ 3 ∨ op.toNat = 9) : wordFits (wordN op) = true := by
  have key : ∀ op : BitVec 4, op.toNat ≤ 3 ∨ op.toNat = 9 → wordFits (op ++ 0b0000#4) = true := by decide
  exact key op h

/-- Format B words fit for the button code (R45). -/
theorem wordB_fits (l : Int) : wordFits (wordB 0x8 l) = true := by
  have key : ∀ x : Level, wordFits (0x8#4 ++ 0b000#3 ++ x) = true := by decide
  exact key (normLevel l)

theorem init (c : InitOperands) : Statement (.init c) := wordN_fits _ (by decide)
theorem teardown : Statement .teardown := wordN_fits _ (by decide)
theorem readDir : Statement .readDir := wordN_fits _ (by decide)
theorem readBtn (now : Nat) : Statement (.readBtn now) := wordN_fits _ (by decide)
theorem edgeARiseSe (a b : Int) : Statement (.edgeARiseSe a b) := wordE_fits _ a b (by decide)
theorem edgeARiseLut (a b : Int) : Statement (.edgeARiseLut a b) := wordE_fits _ a b (by decide)
theorem edgeARiseHs (a b : Int) : Statement (.edgeARiseHs a b) := wordE_fits _ a b (by decide)
theorem edgeARiseFs (a b : Int) : Statement (.edgeARiseFs a b) := wordE_fits _ a b (by decide)
theorem edgeAFallSe (a b : Int) : Statement (.edgeAFallSe a b) := wordE_fits _ a b (by decide)
theorem edgeAFallLut (a b : Int) : Statement (.edgeAFallLut a b) := wordE_fits _ a b (by decide)
theorem edgeAFallHs (a b : Int) : Statement (.edgeAFallHs a b) := wordE_fits _ a b (by decide)
theorem edgeAFallFs (a b : Int) : Statement (.edgeAFallFs a b) := wordE_fits _ a b (by decide)
theorem edgeBRiseSe (a b : Int) : Statement (.edgeBRiseSe a b) := wordE_fits _ a b (by decide)
theorem edgeBRiseLut (a b : Int) : Statement (.edgeBRiseLut a b) := wordE_fits _ a b (by decide)
theorem edgeBRiseHs (a b : Int) : Statement (.edgeBRiseHs a b) := wordE_fits _ a b (by decide)
theorem edgeBRiseFs (a b : Int) : Statement (.edgeBRiseFs a b) := wordE_fits _ a b (by decide)
theorem edgeBFallSe (a b : Int) : Statement (.edgeBFallSe a b) := wordE_fits _ a b (by decide)
theorem edgeBFallLut (a b : Int) : Statement (.edgeBFallLut a b) := wordE_fits _ a b (by decide)
theorem edgeBFallHs (a b : Int) : Statement (.edgeBFallHs a b) := wordE_fits _ a b (by decide)
theorem edgeBFallFs (a b : Int) : Statement (.edgeBFallFs a b) := wordE_fits _ a b (by decide)
theorem btnEdge (l : Int) (now : Nat) : Statement (.btnEdge l now) := wordB_fits l
theorem btnTick (now : Nat) : Statement (.btnTick now) := wordN_fits _ (by decide)

end Sys2Proof.Laws.EventWord
end

