-- ==== Sys2Proof/Tests/Slice0.lean ====
section
/-! SUPPORT. Tests of the model, and a witness for the hypotheses of every statement. Expected values are written out from
the encodings of 30_encoding.md and from 95_test_vectors.md (each test names its vector), never from the model. -/

namespace Sys2Proof.Tests

open Sys2Proof Sys2Proof.Machine

/-! Helpers. -/

/-- The next state, when there is one. -/
def nextOf (o : Answer) : Option State :=
  match o with
  | .next s => some s
  | .fault _ => none
  | .refused _ => none

/-- The refusal, when there is one. -/
def refusalIn (o : Answer) : Option Refusal :=
  match o with
  | .next _ => none
  | .fault _ => none
  | .refused r => some r

/-- Side-band operands that carry only a time. -/
def atTime (now : Nat) : SideBand :=
  { SideBand.zeros with now := now }

/-- A session in mode `m` on pins 17 and 27 with no button. -/
def live (m : Mode) : State :=
  { State.reset with
    phase := .active
    evEn := if m = .singleEdge then 0b00001 else 0b01111
    cfgPinA := 17
    cfgPinB := 27
    cfgBtnPin := 0xFF
    cfgMode := m }

/-- The same with a button on pin 22 and a delay of 10. -/
def liveBtn (m : Mode) : State :=
  { live m with
    evEn := if m = .singleEdge then 0b10001 else 0b11111
    cfgBtnPin := 22
    cfgDelay := 10 }

/-- The level 1 recorded at time 100 and not yet accepted (V-BT1). -/
def pressed : State :=
  { liveBtn .fullStep with btnLevel := 1, btnT := 100 }

/-- Operands of INIT (V-IN1): pins 17 and 27, button 22, HalfStep, delay 50. -/
def initOk : InitOperands :=
  { pinA := 17, pinB := 27, btnPin := 22, mode := 2, delay := 50, regOk := 0b11111 }

/-- The state of a session with an event word waiting. -/
def waiting (s : State) (w : BitVec 8) : State :=
  { s with inbox := [.event w SideBand.zeros] }

/-! Well-formed instructions. -/

theorem test_ill_formed_a : (Instr.edgeARiseLut 2 0).wf Config.params = false := by decide
theorem test_ill_formed_b : (Instr.edgeBFallFs 1 (-1)).wf Config.params = false := by decide
theorem test_ill_formed_l : (Instr.btnEdge 7 0).wf Config.params = false := by decide
theorem test_ill_formed_now :
    (Instr.readBtn 0x100000000).wf Config.params = false ∧ (Instr.btnEdge 1 0x100000000).wf Config.params = false ∧
    (Instr.btnTick 0x100000000).wf Config.params = false := by decide
theorem test_ill_formed_init :
    (Instr.init { initOk with pinA := 256 }).wf Config.params = false ∧
    (Instr.init { initOk with pinB := 256 }).wf Config.params = false ∧
    (Instr.init { initOk with btnPin := 256 }).wf Config.params = false ∧
    (Instr.init { initOk with delay := 0x100000000 }).wf Config.params = false := by decide
theorem test_well_formed :
    (Instr.edgeBFallFs 1 0).wf Config.params = true ∧ (Instr.btnEdge 1 0xFFFFFFFF).wf Config.params = true ∧
    (Instr.init { initOk with btnPin := 255 }).wf Config.params = true := by decide

/-! Decoding: for every row a word written out from R45, R46 and R55: mode, operation code, argument. -/

theorem test_decode_session_words :
    decodeTableWord 10 0b00_0000_0000 = some (.init SideBand.zeros.init) ∧
    decodeTableWord 10 0b11_0001_0000 = some .teardown ∧
    decodeTableWord 16 0b10_0010_0000 = some .readDir ∧
    decodeTableWord 10 0b01_0011_0000 = some (.readBtn 0) := by decide

theorem test_decode_edge_words_single_edge :
    decodeTableWord 10 0b00_0100_0010 = some (.edgeARiseSe 1 0) ∧
    decodeTableWord 10 0b00_0101_0001 = some (.edgeAFallSe 0 1) ∧
    decodeTableWord 10 0b00_0110_0011 = some (.edgeBRiseSe 1 1) ∧
    decodeTableWord 10 0b00_0111_0010 = some (.edgeBFallSe 1 0) := by decide

theorem test_decode_edge_words_lookup_table :
    decodeTableWord 10 0b01_0100_0010 = some (.edgeARiseLut 1 0) ∧
    decodeTableWord 10 0b01_0101_0001 = some (.edgeAFallLut 0 1) ∧
    decodeTableWord 10 0b01_0110_0011 = some (.edgeBRiseLut 1 1) ∧
    decodeTableWord 10 0b01_0111_0000 = some (.edgeBFallLut 0 0) := by decide

theorem test_decode_edge_words_half_step :
    decodeTableWord 10 0b10_0100_0010 = some (.edgeARiseHs 1 0) ∧
    decodeTableWord 10 0b10_0101_0001 = some (.edgeAFallHs 0 1) ∧
    decodeTableWord 10 0b10_0110_0011 = some (.edgeBRiseHs 1 1) ∧
    decodeTableWord 10 0b10_0111_0010 = some (.edgeBFallHs 1 0) := by decide

theorem test_decode_edge_words_full_step :
    decodeTableWord 10 0b11_0100_0010 = some (.edgeARiseFs 1 0) ∧
    decodeTableWord 10 0b11_0101_0001 = some (.edgeAFallFs 0 1) ∧
    decodeTableWord 10 0b11_0110_0011 = some (.edgeBRiseFs 1 1) ∧
    decodeTableWord 10 0b11_0111_0000 = some (.edgeBFallFs 0 0) := by decide

theorem test_decode_button_words :
    decode 0b10_1000_0001 (atTime 100) = .instr (.btnEdge 1 100) ∧
    decode 0b00_1000_0000 (atTime 7) = .instr (.btnEdge 0 7) ∧
    decode 0b11_1001_0000 (atTime 110) = .instr (.btnTick 110) ∧
    decode 0b00_0011_0000 (atTime 9) = .instr (.readBtn 9) := by decide

/-- R53: the reserved codes 0xA and 0xF, and each reserved argument field at its lowest and highest bit. -/
theorem test_reserved_words_rejected :
    decodeTableWord 10 0b00_1010_0000 = none ∧ decodeTableWord 10 0b11_1111_1111 = none ∧
    decodeTableWord 10 0b00_0010_0001 = none ∧ decodeTableWord 10 0b00_1001_1000 = none ∧
    decodeTableWord 10 0b01_0100_0100 = none ∧ decodeTableWord 10 0b01_0111_1000 = none ∧
    decodeTableWord 10 0b01_1000_0010 = none ∧ decodeTableWord 10 0b01_1000_1000 = none ∧
    decodeTableWord 16 0b0000_0100_0000_0000 = none := by decide

/-- P2 line 6 is word 0x63 in mode 1; P3 line 3 is word 0x81. -/
theorem test_encode_words :
    (encode .halfStep (.edgeBRiseLut 1 1)).1 = 0b01_0110_0011 ∧
    encode .fullStep (.btnEdge 1 100) = (0b11_1000_0001, atTime 100) ∧
    (encode .halfStep .readDir).1 = 0b10_0010_0000 := by decide

/-! The step. -/

/-- P1 line 2 as a fetched word: HS[0][1] = 0x02. -/
theorem test_step_runs_the_placed_word :
    (nextOf (step ((live .halfStep).withFetchWord 10 0b10_0101_0001))).map (fun s => (s.tstate, s.inbox)) =
      some (2, []) := by decide

/-- X4, X5: a reserved code and a reserved argument bit. -/
theorem test_step_refuses_reserved_words :
    refusalIn (step (waiting (live .halfStep) 0xA0)) = some (.reservedOperation 0xA) ∧
    refusalIn (step (waiting (live .halfStep) 0x48)) = some (.reservedArgument 0x48) := by decide

/-- At PIN_W = 3 and T_W = 4 (R4: OPEN): the sentinel is 7, and the elapsed time from 14 to 1 is 3 (R5). -/
theorem test_other_widths :
    (nextOf (exec (.init { initOk with pinA := 1, pinB := 7 }) { State.reset with params := ⟨3, 4⟩ })).map
      (fun s => s.result) = some (.status .configurationError) ∧
    (nextOf (exec (.init { initOk with pinA := 1, pinB := 2, btnPin := 7 }) { State.reset with params := ⟨3, 4⟩ })).map
      (fun s => s.evEn) = some 0b01111 ∧
    (nextOf (exec (.btnTick 1) { pressed with params := ⟨5, 4⟩, cfgDelay := 3, btnT := 14 })).map (fun s => s.btnOut) =
      some 1 ∧
    (nextOf (exec (.btnTick 1) { pressed with params := ⟨5, 4⟩, cfgDelay := 4, btnT := 14 })).map (fun s => s.btnOut) =
      some 0 := by decide

/-! Edge operations. -/

/-- V-SE1, V-SE5. -/
theorem test_se_a_rise_b_low :
    (nextOf (exec (.edgeARiseSe 1 0) { live .singleEdge with dir := .neg })).map (fun s => (s.dir, s.lastDir)) =
      some (.pos, .pos) := by decide

/-- V-SE4: `a` is not read. -/
theorem test_se_a_rise_b_high :
    (nextOf (exec (.edgeARiseSe 0 1) (live .singleEdge))).map (fun s => (s.dir, s.lastDir)) =
      some (.neg, .neg) := by decide

/-- V-SE6, V-SE7, V-SE8: ignored. -/
theorem test_se_other_kinds_ignored :
    nextOf (exec (.edgeAFallSe 0 1) { live .singleEdge with dir := .pos }) =
      some { live .singleEdge with dir := .pos } ∧
    nextOf (exec (.edgeBRiseSe 1 1) { live .singleEdge with dir := .pos }) =
      some { live .singleEdge with dir := .pos } ∧
    nextOf (exec (.edgeBFallSe 1 0) { live .singleEdge with dir := .pos }) =
      some { live .singleEdge with dir := .pos } := by decide

/-- P2 line 2: from `abAB = 0`, reading 10: index 2, +1. -/
theorem test_lut_a_rise :
    (nextOf (exec (.edgeARiseLut 1 0) (live .lookupTable))).map (fun s => (s.abAB, s.lastDir, s.dir)) =
      some (0b0010, .pos, .pos) := by decide

/-- P2 line 3: from `abAB = 0010`, reading 00: index 8, -1. -/
theorem test_lut_a_fall :
    (nextOf (exec (.edgeAFallLut 0 0) { live .lookupTable with abAB := 0b0010, dir := .pos })).map
      (fun s => (s.abAB, s.lastDir, s.dir)) = some (0b1000, .neg, .neg) := by decide

/-- P2 line 6: from `abAB = 0010`, reading 11: index 11, +1. -/
theorem test_lut_b_rise :
    (nextOf (exec (.edgeBRiseLut 1 1) { live .lookupTable with abAB := 0b0010 })).map
      (fun s => (s.abAB, s.lastDir, s.dir)) = some (0b1011, .pos, .pos) := by decide

/-- P2 line 8: from `abAB = 1011`, reading 00: index 12, no determination; `dir` is kept (V-LU6). -/
theorem test_lut_b_fall :
    (nextOf (exec (.edgeBFallLut 0 0) { live .lookupTable with abAB := 0b1011, dir := .neg })).map
      (fun s => (s.abAB, s.lastDir, s.dir)) = some (0b1100, .zero, .neg) := by decide

/-- P1 line 5: HS[3][2] = 0x04. -/
theorem test_hs_a_rise :
    (nextOf (exec (.edgeARiseHs 1 0) { live .halfStep with tstate := 3, dir := .pos })).map
      (fun s => (s.tstate, s.lastDir, s.dir)) = some (4, .zero, .pos) := by decide

/-- P1 line 10: HS[1][0] = 0x23. -/
theorem test_hs_a_fall :
    (nextOf (exec (.edgeAFallHs 0 0) { live .halfStep with tstate := 1 })).map
      (fun s => (s.tstate, s.lastDir, s.dir)) = some (3, .neg, .neg) := by decide

/-- P1 line 6: HS[4][3] = 0x10. -/
theorem test_hs_b_rise :
    (nextOf (exec (.edgeBRiseHs 1 1) { live .halfStep with tstate := 4 })).map
      (fun s => (s.tstate, s.lastDir, s.dir)) = some (0, .pos, .pos) := by decide

/-- P1 line 3: HS[2][0] = 0x13; the same with readings -3 and -3 (R8). -/
theorem test_hs_b_fall :
    (nextOf (exec (.edgeBFallHs 0 0) { live .halfStep with tstate := 2 })).map
      (fun s => (s.tstate, s.lastDir, s.dir)) = some (3, .pos, .pos) ∧
    (nextOf (exec (.edgeBFallHs (-3) (-3)) { live .halfStep with tstate := 2 })).map
      (fun s => (s.tstate, s.lastDir, s.dir)) = some (3, .pos, .pos) := by decide

/-- P3 line 7: FS[3][2] = 0x01. -/
theorem test_fs_a_rise :
    (nextOf (exec (.edgeARiseFs 1 0) { live .fullStep with tstate := 3 })).map
      (fun s => (s.tstate, s.lastDir, s.dir)) = some (1, .zero, .zero) := by decide

/-- P3 line 2: FS[0][1] = 0x02. -/
theorem test_fs_a_fall :
    (nextOf (exec (.edgeAFallFs 0 1) (live .fullStep))).map (fun s => (s.tstate, s.lastDir)) =
      some (2, .zero) := by decide

/-- P3 line 10: FS[1][3] = 0x10; V-FS2 step 4: FS[5][3] = 0x20. -/
theorem test_fs_b_rise :
    (nextOf (exec (.edgeBRiseFs 1 1) { live .fullStep with tstate := 1 })).map
      (fun s => (s.tstate, s.lastDir, s.dir)) = some (0, .pos, .pos) ∧
    (nextOf (exec (.edgeBRiseFs 1 1) { live .fullStep with tstate := 5 })).map
      (fun s => (s.tstate, s.lastDir, s.dir)) = some (0, .neg, .neg) := by decide

/-- P3 line 4: FS[2][0] = 0x03. -/
theorem test_fs_b_fall :
    (nextOf (exec (.edgeBFallFs 0 0) { live .fullStep with tstate := 2 })).map (fun s => (s.tstate, s.lastDir)) =
      some (3, .zero) := by decide

/-- X6: a row the table does not have. -/
theorem test_row_out_of_range :
    refusalIn (exec (.edgeARiseHs 1 0) { live .halfStep with tstate := 6 }) = some .rowOutOfRange ∧
    refusalIn (exec (.edgeBFallFs 1 0) { live .fullStep with tstate := 7 }) = some .rowOutOfRange := by decide

/-! Button operations. -/

/-- V-BT3: a second edge exactly the delay after the first accepts the first. -/
theorem test_btn_edge_accepts_then_records :
    (nextOf (exec (.btnEdge 0 110) pressed)).map (fun s => (s.btnOut, s.btnLevel, s.btnT)) =
      some (1, 0, 110) := by decide

/-- V-BT4, and V-BT9: the reading 7 counts as 1. -/
theorem test_btn_edge_too_early :
    (nextOf (exec (.btnEdge 0 109) pressed)).map (fun s => (s.btnOut, s.btnLevel, s.btnT)) = some (0, 0, 109) ∧
    (nextOf (exec (.btnEdge 7 100) (liveBtn .fullStep))).map (fun s => (s.btnOut, s.btnLevel, s.btnT)) =
      some (0, 1, 100) := by decide

/-- V-BT2: 109 is too early, 110 accepts. -/
theorem test_btn_tick :
    (nextOf (exec (.btnTick 109) pressed)).map (fun s => s.btnOut) = some 0 ∧
    (nextOf (exec (.btnTick 110) pressed)).map (fun s => (s.btnOut, s.btnLevel, s.btnT)) = some (1, 1, 100) := by
  decide

/-- V-BT8: with no button both are ignored. -/
theorem test_no_button :
    nextOf (exec (.btnEdge 1 5) (live .halfStep)) = some (live .halfStep) ∧
    nextOf (exec (.btnTick 50) (live .halfStep)) = some (live .halfStep) := by decide

/-! Session operations. -/

/-- V-IN1. -/
theorem test_init_ok :
    (nextOf (exec (.init initOk) State.reset)).map
      (fun s => (s.phase, s.evEn, s.cfgMode, s.cfgDelay, s.result)) =
      some (.active, 0b11111, .halfStep, 50, .status .ok) := by decide

/-- V-IN10 (validation first), V-IN8, V-IN9, V-IN12. -/
theorem test_init_errors :
    nextOf (exec (.init { initOk with pinA := 4, pinB := 4, regOk := 0 }) State.reset) =
      some { State.reset with result := .status .configurationError } ∧
    (nextOf (exec (.init ⟨4, 5, 9, 0, 0, 0b01111⟩) State.reset)).map (fun s => (s.phase, s.evEn, s.result)) =
      some (.idle, 0, .status .registrationError) ∧
    (nextOf (exec (.init ⟨4, 5, 0xFF, 2, 0, 0b00111⟩) State.reset)).map (fun s => (s.phase, s.evEn, s.result)) =
      some (.idle, 0, .status .registrationError) ∧
    refusalIn (exec (.init initOk) (live .halfStep)) = some .initWhileActive := by decide

/-- P1 lines 10 and 11, V-TD4. -/
theorem test_read_dir :
    (nextOf (exec .readDir { live .halfStep with tstate := 3, lastDir := .neg, dir := .neg })) =
      some { live .halfStep with tstate := 3, lastDir := .neg, dir := .zero, result := .direction .neg } ∧
    refusalIn (exec .readDir State.reset) = some .readDirWhileIdle := by decide

/-- V-BT1, V-BT6 and V-TD4. -/
theorem test_read_btn :
    (nextOf (exec (.readBtn 109) pressed)).map (fun s => s.result) = some (.level 0) ∧
    nextOf (exec (.readBtn 110) pressed) = some { pressed with result := .level 1 } ∧
    (nextOf (exec (.readBtn 7) { pressed with cfgDelay := 0, btnT := 7 })).map (fun s => (s.result, s.btnOut)) =
      some (.level 1, 0) ∧
    refusalIn (exec (.readBtn 0) State.reset) = some .readBtnWhileIdle := by decide

/-- V-BT7: the elapsed time across the wrap is 20. V-BT8: no button reads 0. -/
theorem test_read_btn_wrap_and_no_button :
    (nextOf (exec (.readBtn 0x00000004) { pressed with btnT := 0xFFFFFFF0 })).map (fun s => s.result) =
      some (.level 1) ∧
    (nextOf (exec (.readBtn 99) (live .halfStep))).map (fun s => s.result) = some (.level 0) := by decide

/-- V-TD1, V-TD2. Nothing is said of the other registers of the live session. -/
theorem test_teardown :
    (nextOf (exec .teardown (liveBtn .fullStep))).map (fun s => (s.phase, s.evEn, s.result)) =
      some (.idle, 0, .status .ok) ∧
    nextOf (exec .teardown State.reset) = some { State.reset with result := .status .ok } := by decide

/-! The free values of TEARDOWN: the state after it is the closed session with the draw of that number. -/

theorem test_teardown_draws :
    (nextOf (exec .teardown (live .halfStep))).map (fun s => (s.draws, s.dir, s.cfgPinA)) =
      some (1, (Config.torn 0).dir, Config.params.pin (Config.torn 0).cfgPinA) := rfl

/-! Witnesses: for every statement with hypotheses a state and operands that meet them together. -/

theorem witness_DecodeOfEncode :
    (Instr.btnEdge 1 0xFFFFFFFF).wf Config.params = true ∧ (Instr.btnEdge 1 15).wf { pinW := 3, tW := 4 } = true ∧
    (Instr.edgeBFallFs 1 1).wf Config.params = true := by decide

theorem witness_AcceptedKey :
    SideBand.zeros.wf Config.params = true ∧ decode 0b11_0111_0011 SideBand.zeros = .instr (.edgeBFallFs 1 1) := by decide

theorem witness_ReservedEventWords :
    (waiting State.reset 0xA0).inbox = .event 0xA0 SideBand.zeros :: [] ∧ 10 ≤ (0xA0#8).toNat / 16 ∧
    10 ≤ (0xFF#8).toNat / 16 ∧
    (0x01#8).toNat / 16 ≤ 3 ∧ 0x01#8 &&& 0b1111 ≠ 0 ∧ (0x38#8).toNat / 16 ≤ 3 ∧ 0x38#8 &&& 0b1111 ≠ 0 ∧
    (0x91#8).toNat / 16 = 9 ∧ 0x91#8 &&& 0b1111 ≠ 0 ∧
    4 ≤ (0x44#8).toNat / 16 ∧ (0x44#8).toNat / 16 ≤ 7 ∧ 0x44#8 &&& 0b1100 ≠ 0 ∧
    4 ≤ (0x78#8).toNat / 16 ∧ (0x78#8).toNat / 16 ≤ 7 ∧ 0x78#8 &&& 0b1100 ≠ 0 ∧
    (0x82#8).toNat / 16 = 8 ∧ 0x82#8 &&& 0b1110 ≠ 0 := by decide

theorem witness_DirectionCodes : 2 ≤ 2 ∧ (live .halfStep).phase = .active := by decide

theorem witness_CodesOfModes : (3#8).toNat ≤ 3 ∧ 4 ≤ (4#8).toNat ∧ 4 ≤ (255#8).toNat := by decide

theorem witness_StepRuns :
    State.reset.inbox = [] ∧
    decodeInput (live .halfStep).cfgMode (.event 0x20 SideBand.zeros) = .instr .readDir ∧
    decodeInput (live .halfStep).cfgMode (.event 0xF0 SideBand.zeros) = .rejected (.reservedOperation 0xF) ∧
    decodeInput (live .halfStep).cfgMode (.event 0x21 SideBand.zeros) = .rejected (.reservedArgument 0x21) := by
  decide

theorem witness_LevelsAct : (0 : Int) ≤ 0 ∧ (1 : Int) ≤ 1 ∧ (-3 : Int) ≤ 0 ∧ (1 : Int) ≤ 7 := by decide

theorem witness_EdgeNotAccepted :
    ¬(State.reset.phase = .active ∧ State.reset.evEn.getLsbD (HandlerKind.edge .aRise).bit = true) ∧
    ¬((live .singleEdge).phase = .active ∧
      (live .singleEdge).evEn.getLsbD (HandlerKind.edge .bFall).bit = true) := by decide

/-- Both cases of `b`, at the boundary. -/
theorem witness_SingleEdgeTrigger :
    (live .singleEdge).phase = .active ∧ (live .singleEdge).cfgMode = .singleEdge ∧
    (live .singleEdge).evEn.getLsbD (HandlerKind.edge .aRise).bit = true ∧ high 1 ∧ ¬high 0 := by decide

theorem witness_SingleEdgeIgnores :
    SessionInv (live .singleEdge) ∧ (live .singleEdge).phase = .active ∧ (live .singleEdge).cfgMode = .singleEdge ∧
    EdgeKind.bFall ≠ .aRise := by decide

theorem witness_LookupTableTrigger :
    (live .lookupTable).phase = .active ∧ (live .lookupTable).cfgMode = .lookupTable ∧
    (live .lookupTable).evEn.getLsbD (HandlerKind.edge .bFall).bit = true := by decide

theorem witness_HalfStepTrigger :
    (live .halfStep).phase = .active ∧ (live .halfStep).cfgMode = .halfStep ∧
    (live .halfStep).evEn.getLsbD (HandlerKind.edge .aFall).bit = true ∧
    { live .halfStep with tstate := 5 }.tstate.toNat ≤ 5 := by decide

theorem witness_FullStepTrigger :
    (live .fullStep).phase = .active ∧ (live .fullStep).cfgMode = .fullStep ∧
    (live .fullStep).evEn.getLsbD (HandlerKind.edge .bRise).bit = true ∧
    { live .fullStep with tstate := 6 }.tstate.toNat ≤ 6 := by decide

theorem witness_TransitionTables :
    (5#4).toNat ≤ 5 ∧ 6 ≤ (6#4).toNat ∧ (6#4).toNat ≤ 6 ∧ 7 ≤ (7#4).toNat ∧
    (live .halfStep).phase = .active ∧ (live .halfStep).evEn.getLsbD (HandlerKind.edge .aRise).bit = true := by decide

theorem witness_EntryNibbles :
    romReadHs 5 3 = some 0x20 ∧ romReadFs 6 0 = some 0x06 ∧ (0x3 : BitVec 4) ≠ 0x1 ∧ (0x3 : BitVec 4) ≠ 0x2 := by
  decide

theorem witness_EdgeKinds : SessionInv (live .lookupTable) ∧ (live .lookupTable).cfgMode ≠ .singleEdge := by decide

theorem witness_HandlerOperations : SessionInv (liveBtn .fullStep) ∧ SessionInv State.reset :=
  ⟨by decide, by decide⟩

theorem witness_EdgeFrame :
    (nextOf (exec (edgeInstr .bFall .lookupTable 1 1) (live .lookupTable))).isSome = true ∧
    (nextOf (exec (edgeInstr .aRise .singleEdge 1 1) (live .singleEdge))).isSome = true := by decide

theorem witness_RestReadings :
    (live .halfStep).phase = .active ∧ (live .halfStep).evEn.getLsbD (HandlerKind.edge .aRise).bit = true ∧
    (nextOf (exec (edgeInstr .aRise .halfStep 0 0) (live .halfStep))).isSome = true ∧
    (nextOf (exec (edgeInstr .aRise .halfStep 1 1) (live .halfStep))).isSome = true ∧
    (nextOf (exec (edgeInstr .aRise .fullStep 1 1) (live .fullStep))).isSome = true := by decide

theorem witness_FullStepNeedsFour :
    SessionInv (live .fullStep) ∧ (live .fullStep).phase = .active ∧ (live .fullStep).cfgMode = .fullStep ∧
    (live .fullStep).tstate = 0 := by decide

theorem witness_HalfStepNeedsTwo :
    SessionInv (live .halfStep) ∧ (live .halfStep).phase = .active ∧ (live .halfStep).cfgMode = .halfStep ∧
    (live .halfStep).tstate = 0 := by decide

/-- One whole cycle (V-FS1) and half of one, from rest at AB = 11. -/
theorem witness_CleanTurns :
    SessionInv { live .lookupTable with abAB := 0b0011 } ∧ SessionInv (live .halfStep) ∧ SessionInv (live .fullStep) ∧
    (0b0011#4).extractLsb' 0 2 = 0b11#2 ∧ (live .halfStep).tstate = 0 ∧ (live .fullStep).tstate = 0 ∧
    cleanTurn 1 1 [⟨.aFall, 0, 1⟩, ⟨.bFall, 0, 0⟩, ⟨.aRise, 1, 0⟩, ⟨.bRise, 1, 1⟩] = true ∧
    lastReading 1 1 [⟨.aFall, 0, 1⟩, ⟨.bFall, 0, 0⟩, ⟨.aRise, 1, 0⟩, ⟨.bRise, 1, 1⟩] = (1, 1) ∧
    cleanTurn 1 1 [⟨.aFall, 0, 1⟩, ⟨.bFall, 0, 0⟩] = true ∧
    lastReading 1 1 [⟨.aFall, 0, 1⟩, ⟨.bFall, 0, 0⟩] = (0, 0) :=
  ⟨by decide, by decide, by decide, by decide, by decide, by decide, by decide, by decide, by decide, by decide⟩

theorem witness_BtnEdge :
    SessionInv pressed ∧ (pressed.phase = .active ∧ pressed.evEn.getLsbD 4 = true) ∧ standsLongEnough pressed 110 ∧
    ¬standsLongEnough pressed 109 ∧
    ¬((live .halfStep).phase = .active ∧ (live .halfStep).evEn.getLsbD 4 = true) := by decide

theorem witness_BtnTick :
    (pressed.phase = .active ∧ pressed.cfgBtnPin ≠ pressed.params.pinNone) ∧ standsLongEnough pressed 110 ∧
    ¬((live .halfStep).phase = .active ∧ (live .halfStep).cfgBtnPin ≠ (live .halfStep).params.pinNone) := by decide

/-- A session opened with no button that has run one edge operation. -/
theorem witness_NoButton :
    (nextOf (exec (.init { initOk with btnPin := 0xFF }) State.reset)).map (fun t => t.result) =
      some (.status .ok) ∧
    ((nextOf (exec (.init { initOk with btnPin := 0xFF }) State.reset)).bind
      (execAll [.btnEdge 1 5])).isSome = true ∧
    Config.params.pin ({ initOk with btnPin := 0xFF } : InitOperands).btnPin = Config.params.pinNone ∧
    Instr.btnEdge 1 5 ≠ .teardown := by decide

theorem witness_TickNeverChanges :
    pressed.phase = .active ∧ pressed.cfgBtnPin ≠ pressed.params.pinNone ∧
    ticksBetween pressed.params pressed.btnT 110 ≤ ticksBetween pressed.params pressed.btnT 110 := by decide

/-- The flips of S6 (a), the delay 10, and a time at which the last level has stood for it. -/
theorem witness_Bounce :
    (liveBtn .fullStep).phase = .active ∧ (liveBtn .fullStep).evEn.getLsbD 4 = true ∧
    (liveBtn .fullStep).cfgBtnPin ≠ (liveBtn .fullStep).params.pinNone ∧
    rapidEdges Config.params (liveBtn .fullStep).cfgDelay (liveBtn .fullStep).btnT [(1, 0), (0, 3), (1, 6), (0, 9)] = true ∧
    (liveBtn .fullStep).cfgDelay ≤ ticksBetween Config.params 9 19 := by decide

theorem witness_Debouncer :
    (liveBtn .fullStep).phase = .active ∧ (liveBtn .fullStep).evEn.getLsbD 4 = true ∧
    (liveBtn .fullStep).cfgBtnPin ≠ (liveBtn .fullStep).params.pinNone ∧ (liveBtn .fullStep).btnLevel = 0 ∧
    (liveBtn .fullStep).btnOut = 0 ∧
    timely Config.params none 0 ([.edge 1 100, .tick 105, .edge 0 110] ++ [.tick 119]) = true := by decide

/-- Each of the five conditions by itself, the mode code at its boundary; and an error that is not one of them. -/
theorem witness_InitRejects :
    State.reset.phase = .idle ∧ Config.params.pin 0xFF = Config.params.pinNone ∧ ¬validOperands Config.params { initOk with pinA := 0xFF } ∧
    ¬validOperands Config.params { initOk with pinB := 0xFF } ∧ ¬validOperands Config.params { initOk with pinB := 17 } ∧
    ¬validOperands Config.params { initOk with btnPin := 27 } ∧ ¬validOperands Config.params { initOk with mode := 4 } ∧ 4 ≤ (4#8).toNat ∧
    (nextOf (exec (.init { initOk with mode := 4 }) State.reset)).map (fun s => s.result) =
      some (.status .configurationError) := by decide

theorem witness_InitReports :
    State.reset.phase = .idle ∧ validOperands Config.params { initOk with regOk := 0b01111 } ∧
    wantOf Config.params { initOk with regOk := 0b01111 } &&& ~~~0b01111#5 ≠ 0 := by decide

theorem witness_InitOpens :
    State.reset.phase = .idle ∧ validOperands Config.params initOk ∧ wantOf Config.params initOk &&& ~~~initOk.regOk = 0 ∧
    validOperands Config.params { initOk with mode := 3, btnPin := 0xFF, regOk := 0b01111 } ∧
    wantOf Config.params { initOk with mode := 3, btnPin := 0xFF, regOk := 0b01111 } &&& ~~~0b01111#5 = 0 := by decide

/-- The phases of READ_DIR, READ_BTN, INIT and TEARDOWN. -/
theorem witness_Phases :
    (live .halfStep).phase = .active ∧ State.reset.phase = .idle ∧ State.reset.evEn = 0 := by decide

theorem witness_HandlersOnIdle :
    State.reset.phase = .idle ∧ ∀ i ∈ [Instr.edgeARiseSe 1 0, .btnEdge 1 5, .btnTick 9], agentOf i = .handler := by
  decide

theorem witness_PhaseMoves :
    (nextOf (exec (.init initOk) State.reset)).map (fun t => (State.reset.phase, t.phase)) = some (.idle, .active) ∧
    (nextOf (exec .teardown (live .halfStep))).map (fun t => ((live .halfStep).phase, t.phase)) =
      some (.active, .idle) := by decide

theorem witness_StepKeepsTheInvariant :
    SessionInv (waiting (live .halfStep) 0x51) ∧
    (nextOf (step (waiting (live .halfStep) 0x51))).isSome = true := by decide

theorem witness_ParametersNeverChange : (nextOf (step (waiting (live .halfStep) 0x51))).isSome = true := by decide

theorem witness_ConfigurationFixed :
    (nextOf (step (waiting (live .halfStep) 0x51))).map (fun t => (t.phase, t.cfgMode)) =
      some (.active, .halfStep) ∧
    (waiting (live .halfStep) 0x51).phase = .active := by decide

theorem witness_AgentsWrite :
    (nextOf (exec (.edgeARiseLut 1 0) (live .lookupTable))).isSome = true ∧ agentOf (.edgeARiseLut 1 0) = .handler ∧
    (nextOf (exec .readDir (live .lookupTable))).isSome = true ∧ agentOf .readDir = .consumer := by decide

/-- A state with every decoder register but the shared ones at another value. -/
def otherDecoder : State :=
  { liveBtn .halfStep with cfgMode := .fullStep, abAB := 1, tstate := 2, lastDir := .neg, dir := .pos }

/-- Two states that differ in every register of the other half. -/
theorem witness_DecoderAndDebouncer :
    decoderView (liveBtn .halfStep) = decoderView { liveBtn .halfStep with btnLevel := 1, btnT := 5, btnOut := 1 } ∧
    buttonView (liveBtn .halfStep) = buttonView otherDecoder ∧
    (nextOf (exec (.btnEdge 1 9) (liveBtn .halfStep))).isSome = true ∧
    (nextOf (exec (.btnEdge 1 9) otherDecoder)).isSome = true :=
  ⟨rfl, rfl, by decide, by decide⟩

theorem witness_ReadDirReturnsTheLast :
    (live .lookupTable).phase = .active ∧ (live .lookupTable).dir = .zero ∧
    (∀ i ∈ [Instr.edgeARiseLut 1 0, .edgeAFallLut 0 0], i ≠ .readDir ∧ i ≠ .teardown) ∧
    (execAll [.edgeARiseLut 1 0, .edgeAFallLut 0 0] (live .lookupTable)).isSome = true := by decide

theorem witness_ReadThenEmit :
    (live .lookupTable).phase = .active ∧ edgeKindOf (.edgeARiseLut 1 0) ≠ none ∧
    (nextOf (exec (.edgeARiseLut 1 0) { live .lookupTable with dir := .neg })).isSome = true := by decide

theorem witness_ResultPending :
    edgeKindOf (.edgeARiseLut 1 0) ≠ none ∧
    (nextOf (exec (.edgeARiseLut 1 0) (live .lookupTable))).isSome = true ∧
    (nextOf (exec (.btnTick 110) pressed)).isSome = true ∧
    (nextOf (exec .readDir (live .lookupTable))).isSome = true := by decide

end Sys2Proof.Tests
end

section
/-! PROOFS. The statements of 00_scope.md: what a step runs (R7), the codes and parameters (R4, R51, R54), level operands as
the nearest boolean (R8), pin and time operands at their widths (R4, R52), and that no step writes the parameters (R4). -/

namespace Sys2Proof

/-! Operand forms. -/

/-- A mode operand of at most 3 is the mode of its low bits (R51). -/
theorem Mode.ofOperand_of_le {m : BitVec 8} (h : m.toNat ≤ 3) :
    Mode.ofOperand m = some (Mode.ofCode (m.extractLsb' 0 2)) := if_pos h

/-- A mode operand of 4 or more is unrecognised (R51). -/
theorem Mode.ofOperand_of_lt {m : BitVec 8} (h : 3 < m.toNat) : Mode.ofOperand m = none := if_neg (by omega)

/-- The sentinel is the greatest number of PIN_W bits (R4). -/
theorem Params.pinNone_add_one (p : Params) : p.pinNone + 1 = 2 ^ p.pinW :=
  Nat.sub_add_cancel Nat.one_le_two_pow

/-- The elapsed time reads T_W bits of the time it is asked at (R57 (d)). -/
@[simp] theorem Params.elapsed_time (p : Params) (now t : Nat) : p.elapsed (p.time now) t = p.elapsed now t := by
  simp only [Params.elapsed, Params.time, Int.natCast_mod, Int.emod_sub_emod]

end Sys2Proof

namespace Sys2Proof.Machine

/-! Level operands (R8). -/

/-- The edge row with its levels replaced is the same row on the replaced levels. -/
theorem nearestLevels_edgeInstr (k : EdgeKind) (m : Mode) (a b : Int) :
    nearestLevels (edgeInstr k m a b) = edgeInstr k m (max 0 (min 1 a)) (max 0 (min 1 b)) := by
  cases k <;> cases m <;> rfl

/-- Every mode decodes the normalised levels only (R8, R62). -/
theorem runMode_congr {a b a' b' : Int} (ha : normLevel a = normLevel a') (hb : normLevel b = normLevel b') (m : Mode) :
    runMode m a b = runMode m a' b' := by
  funext s
  cases m
  case singleEdge => simp only [runMode, runSe, hb]
  case lookupTable => simp only [runMode, runLut, ha, hb]
  case halfStep => simp only [runMode, runHs, ha, hb]
  case fullStep => simp only [runMode, runFs, ha, hb]

/-- BTN_EDGE records the normalised level only (R8, R90). -/
theorem exec_btnEdge_congr {l l' : Int} (h : normLevel l = normLevel l') (now : Nat) (s : State) :
    exec (.btnEdge l now) s = exec (.btnEdge l' now) s := by
  simp only [exec, execBtnEdge, h]

/-- Replacing every level by the nearest of 0 and 1 changes no operation (R8, R113). -/
theorem exec_nearestLevels (i : Instr) (s : State) : exec (nearestLevels i) s = exec i s := by
  obtain ⟨c, rfl⟩ | rfl | rfl | ⟨now, rfl⟩ | ⟨k, m, a, b, rfl⟩ | ⟨l, now, rfl⟩ | ⟨now, rfl⟩ := instr_cases i
  · rfl
  · rfl
  · rfl
  · rfl
  · rw [nearestLevels_edgeInstr, exec_edgeInstr, exec_edgeInstr,
      runMode_congr (normLevel_nearest a) (normLevel_nearest b)]
  · exact exec_btnEdge_congr (normLevel_nearest l) now s
  · rfl

/-! Pin, time and delay operands (R4, R52). -/

/-- An edge row has no operand that is cut to a width. -/
theorem operandsAtWidth_edgeInstr (p : Params) (k : EdgeKind) (m : Mode) (a b : Int) :
    operandsAtWidth p (edgeInstr k m a b) = edgeInstr k m a b := by
  cases k <;> cases m <;> rfl

/-- INIT's operands cut to their widths are the model's `atWidths`. -/
theorem operandsAtWidth_init (p : Params) (c : InitOperands) : operandsAtWidth p (.init c) = .init (c.atWidths p) := rfl

/-- `Settle`'s condition reads T_W bits of `now` (R91). -/
@[simp] theorem State.settles_time (s : State) (now : Nat) : s.settles (s.params.time now) = s.settles now := by
  simp only [State.settles, Params.elapsed_time]

/-- `Settle` reads T_W bits of `now` (R91). -/
@[simp] theorem State.settle_time (s : State) (now : Nat) : s.settle (s.params.time now) = s.settle now := by
  simp only [State.settle, State.settles_time]

/-- `Debounced` reads T_W bits of `now` (R93). -/
@[simp] theorem State.debounced_time (s : State) (now : Nat) : s.debounced (s.params.time now) = s.debounced now := by
  simp only [State.debounced, State.settles_time]

/-- A recorded time is held at T_W bits (R19, R90). -/
@[simp] theorem State.recordButton_time (s : State) (l : Level) (now : Nat) :
    s.recordButton l (s.params.time now) = s.recordButton l now := by
  simp only [State.recordButton, Params.time_time]

/-- INIT takes its operands at their widths (R52, R100). -/
theorem exec_init_atWidths (c : InitOperands) (s : State) : exec (.init (c.atWidths s.params)) s = exec (.init c) s := by
  simp only [exec, execInit, InitOperands.atWidths_atWidths]

/-- READ_BTN reads T_W bits of `now` (R105). -/
theorem exec_readBtn_time (now : Nat) (s : State) :
    exec (.readBtn (s.params.time now)) s = exec (.readBtn now) s := by
  simp only [exec, execReadBtn, State.debounced_time]

/-- BTN_EDGE reads T_W bits of `now` (R90). -/
theorem exec_btnEdge_time (l : Int) (now : Nat) (s : State) :
    exec (.btnEdge l (s.params.time now)) s = exec (.btnEdge l now) s := by
  have hrec := (s.settle now).recordButton_time (normLevel l) now
  rw [State.settle_params] at hrec
  simp only [exec, execBtnEdge, State.settle_time, hrec]

/-- BTN_TICK reads T_W bits of `now` (R92). -/
theorem exec_btnTick_time (now : Nat) (s : State) :
    exec (.btnTick (s.params.time now)) s = exec (.btnTick now) s := by
  simp only [exec, execBtnTick, State.settle_time]

/-- Cutting every pin, time and delay operand to its width changes no operation (R4, R52). -/
theorem exec_operandsAtWidth (i : Instr) (s : State) : exec (operandsAtWidth s.params i) s = exec i s := by
  obtain ⟨c, rfl⟩ | rfl | rfl | ⟨now, rfl⟩ | ⟨k, m, a, b, rfl⟩ | ⟨l, now, rfl⟩ | ⟨now, rfl⟩ := instr_cases i
  · exact exec_init_atWidths c s
  · rfl
  · rfl
  · exact exec_readBtn_time now s
  · rw [operandsAtWidth_edgeInstr]
  · exact exec_btnEdge_time l now s
  · exact exec_btnTick_time now s

/-! What an operation that answers a next state can have done: one lemma per operation, the edge rows having
`trigger_next` (R60, R90 to R92, R100, R104 to R106). -/

theorem exec_init_next {c : InitOperands} {s t : State} (h : exec (.init c) s = .next t) :
    s.phase = .idle ∧ t = initSession (c.atWidths s.params) s := by
  simp only [exec, execInit] at h
  split at h
  next => cases h
  next hp =>
    cases h
    refine ⟨?_, rfl⟩
    cases hq : s.phase with
    | idle => rfl
    | active => exact absurd hq hp

theorem exec_teardown_next {s t : State} (h : exec .teardown s = .next t) :
    t = ((if s.phase = .active then s.tear else s).closeSession).finish (.status .ok) (cancellations s.evEn) := by
  cases h
  rfl

theorem exec_readDir_next {s t : State} (h : exec .readDir s = .next t) :
    s.phase = .active ∧ t = s.clearDir.finish (.direction s.dir) [] := by
  simp only [exec, execReadDir] at h
  split at h
  next hp => cases h; exact ⟨hp, rfl⟩
  next => cases h

theorem exec_readBtn_next {now : Nat} {s t : State} (h : exec (.readBtn now) s = .next t) :
    s.phase = .active ∧ t = s.finish (.level (if s.hasButton then s.debounced now else 0)) [] := by
  simp only [exec, execReadBtn] at h
  split at h
  next hp => cases h; exact ⟨hp, rfl⟩
  next => cases h

theorem exec_btnEdge_next {l : Int} {now : Nat} {s t : State} (h : exec (.btnEdge l now) s = .next t) :
    (s.accepts .button = false ∧ t = s.finish .none []) ∨
      s.accepts .button = true ∧ t = ((s.settle now).recordButton (normLevel l) now).finish .none [] := by
  simp only [exec, execBtnEdge] at h
  split at h
  next ha => cases h; exact .inr ⟨ha, rfl⟩
  next ha => cases h; exact .inl ⟨by simpa using ha, rfl⟩

theorem exec_btnTick_next {now : Nat} {s t : State} (h : exec (.btnTick now) s = .next t) :
    (¬(s.phase = .active ∧ s.hasButton = true) ∧ t = s.finish .none []) ∨
      (s.phase = .active ∧ s.hasButton = true) ∧ t = (s.settle now).finish .none [] := by
  simp only [exec, execBtnTick] at h
  split at h
  next ha => cases h; exact .inr ⟨ha, rfl⟩
  next ha => cases h; exact .inl ⟨ha, rfl⟩

/-! No operation writes the parameters (R4). -/

/-- The decode of a mode leaves the parameters. -/
theorem runMode_params {m : Mode} {a b : Int} {s s' : State} {d : Direction} (h : runMode m a b s = some (d, s')) :
    s'.params = s.params := by
  obtain ⟨-, -, hs⟩ | ⟨-, -, hs⟩ | ⟨-, -, hs⟩ | ⟨-, -, hs⟩ := runMode_some h
  · rw [hs]
  · rw [hs, State.setAbAB_params]
  · rw [hs, State.setTstate_params]
  · rw [hs, State.setTstate_params]

/-- A trigger leaves the parameters. -/
theorem trigger_runMode_params {k : EdgeKind} {m : Mode} {a b : Int} {s t : State}
    (h : trigger k (runMode m a b) s = .next t) : t.params = s.params := by
  obtain ⟨-, rfl⟩ | ⟨d, s', -, hd, rfl⟩ := trigger_next h
  · rfl
  · rw [State.finish_params, State.writeBack_params, runMode_params hd]

/-- INIT leaves the parameters, whatever it answers. -/
@[simp] theorem initSession_params (c : InitOperands) (s : State) : (initSession c s).params = s.params := by
  obtain h | ⟨cs, h⟩ | ⟨m, cs, -, -, -, h⟩ := initSession_cases c s
  · rw [h, State.finish_params]
  · rw [h, State.finish_params]
  · rw [h, State.finish_params, State.openSession_params]

/-- Every operation leaves the parameters. -/
theorem exec_params {i : Instr} {s t : State} (h : exec i s = .next t) : t.params = s.params := by
  obtain ⟨c, rfl⟩ | rfl | rfl | ⟨now, rfl⟩ | ⟨k, m, a, b, rfl⟩ | ⟨l, now, rfl⟩ | ⟨now, rfl⟩ := instr_cases i
  · obtain ⟨-, rfl⟩ := exec_init_next h
    exact initSession_params ..
  · rw [exec_teardown_next h, State.finish_params, State.closeSession_params]
    split
    · exact State.tear_params s
    · rfl
  · obtain ⟨-, rfl⟩ := exec_readDir_next h
    exact State.clearDir_params s
  · obtain ⟨-, rfl⟩ := exec_readBtn_next h
    exact State.finish_params ..
  · exact trigger_runMode_params (exec_edgeInstr k m a b s ▸ h)
  · obtain ⟨-, rfl⟩ | ⟨-, rfl⟩ := exec_btnEdge_next h <;> simp
  · obtain ⟨-, rfl⟩ | ⟨-, rfl⟩ := exec_btnTick_next h <;> simp

/-! The step (R7). -/

/-- With an empty inbox the step changes nothing (log 1). -/
theorem step_of_nil {s : State} (h : s.inbox = []) : step s = .next s := by
  simp only [step, State.takeInput, h]

/-- The step is `exec` of the decoded operation, taken from the inbox (R7, R45). -/
theorem step_of_instr {s : State} {x : Input} {rest : List Input} {i : Instr} (h : s.inbox = x :: rest)
    (hd : decodeInput s.cfgMode x = .instr i) : step s = exec i { s with inbox := rest } := by
  simp only [step, State.takeInput, h, hd]

/-- A rejected word stops the step (R53). -/
theorem step_of_rejected {s : State} {x : Input} {rest : List Input} {r : Reject} (h : s.inbox = x :: rest)
    (hd : decodeInput s.cfgMode x = .rejected r) : step s = .refused (refusalOf r) := by
  simp only [step, State.takeInput, h, hd]

/-! The statements. -/

/-- Settles O9: every level operand is read through `Norm` only, which clamping does not change. -/
theorem levelsActAsTheNearestBoolean : Obligations.LevelsActAsTheNearestBoolean :=
  ⟨fun _ h => normLevel_of_not_high (by omega), fun _ => normLevel_of_high, normLevel_ofPort,
    fun i s => (exec_nearestLevels i s).symm⟩

/-- Settles O10: INIT cuts its operands itself, and the button operations read `now` through the elapsed time and
the recorded time only. -/
theorem operandsActAtTheirWidths : Obligations.OperandsActAtTheirWidths :=
  fun i s => (exec_operandsAtWidth i s).symm

/-- Settles O11: a step does nothing or runs one operation, and no operation writes the parameters. -/
theorem parametersNeverChange : Obligations.ParametersNeverChange := by
  intro s t h
  obtain ⟨-, rfl⟩ | ⟨x, rest, i, -, -, hi⟩ := step_next h
  · rfl
  · exact (exec_params hi :)

/-- Settles O6: the codes are those of the tables of R51 and R54, and a recognised mode operand is its own code. -/
theorem codesOfModesStatusesAndTheSentinel : Obligations.CodesOfModesStatusesAndTheSentinel := by
  refine ⟨⟨rfl, rfl, Params.pinNone_add_one⟩, ⟨rfl, rfl, rfl, rfl⟩, ⟨rfl, rfl, rfl⟩, fun m => ⟨fun h => ?_, fun h => ?_⟩⟩
  · exact ⟨_, Mode.ofOperand_of_le h, Mode.code_ofCode _⟩
  · exact Mode.ofOperand_of_lt h

/-- Settles O7: the three ways a step can go. -/
theorem stepRunsTheDecodedOperation : Obligations.StepRunsTheDecodedOperation :=
  fun _ => ⟨step_of_nil, fun _ _ h =>
    ⟨fun _ => step_of_instr h, fun _ => step_of_rejected h, fun _ => step_of_rejected h⟩⟩

end Sys2Proof.Machine
end

section
/-! PROOFS. The statements of 10_state.md: the session invariant at reset and after every step (R10, R12 to R14, R26, R35,
R94), which registers each agent's operations write (R23), and the result-pending flag (R22). -/

namespace Sys2Proof.Machine

/-! The agents' operations (R46). -/

/-- The operations of the handler context. -/
theorem handler_cases {i : Instr} (h : agentOf i = .handler) :
    (∃ k m a b, i = edgeInstr k m a b) ∨ (∃ l now, i = .btnEdge l now) ∨ ∃ now, i = .btnTick now := by
  obtain ⟨c, rfl⟩ | rfl | rfl | ⟨now, rfl⟩ | hi := instr_cases i
  · cases h
  · cases h
  · cases h
  · cases h
  · exact hi

/-- The operations of the consumer. -/
theorem consumer_cases {i : Instr} (h : agentOf i = .consumer) : i = .readDir ∨ ∃ now, i = .readBtn now := by
  obtain ⟨c, rfl⟩ | rfl | hd | hb | ⟨k, m, a, b, rfl⟩ | ⟨l, now, rfl⟩ | ⟨now, rfl⟩ := instr_cases i
  · cases h
  · cases h
  · exact .inl hd
  · exact .inr hb
  · rw [agentOf_edgeInstr] at h; cases h
  · cases h
  · cases h

/-- The operations with an edge kind are the edge rows (R60). -/
theorem edge_cases {i : Instr} (h : edgeKindOf i ≠ none) : ∃ k m a b, i = edgeInstr k m a b := by
  obtain ⟨c, rfl⟩ | rfl | rfl | ⟨now, rfl⟩ | hi | ⟨l, now, rfl⟩ | ⟨now, rfl⟩ := instr_cases i
  · exact absurd rfl h
  · exact absurd rfl h
  · exact absurd rfl h
  · exact absurd rfl h
  · exact hi
  · exact absurd rfl h
  · exact absurd rfl h

/-- What an edge row that answers a next state can have done: it was ignored, or it decoded and wrote back. -/
theorem exec_edgeInstr_next {k : EdgeKind} {m : Mode} {a b : Int} {s t : State}
    (h : exec (edgeInstr k m a b) s = .next t) :
    (s.accepts (.edge k) = false ∧ t = s.finish .none []) ∨
      ∃ d s', s.accepts (.edge k) = true ∧ runMode m a b s = some (d, s') ∧ t = (s'.writeBack d).finish .none [] :=
  trigger_next (exec_edgeInstr k m a b s ▸ h)

/-- The decode of a mode writes `abAB` and `tstate` at most (R63). -/
theorem runMode_frame {m : Mode} {a b : Int} {s s' : State} {d : Direction} (h : runMode m a b s = some (d, s')) :
    s' = { s with abAB := s'.abAB, tstate := s'.tstate } := by
  obtain ⟨-, -, hs⟩ | ⟨-, -, hs⟩ | ⟨-, -, hs⟩ | ⟨-, -, hs⟩ := runMode_some h
  · rw [hs]
  · rw [hs]; rfl
  · rw [hs]; rfl
  · rw [hs]; rfl

/-- The decode of a mode leaves `dir` (R63). -/
theorem runMode_dir {m : Mode} {a b : Int} {s s' : State} {d : Direction} (h : runMode m a b s = some (d, s')) :
    s'.dir = s.dir := by
  rw [runMode_frame h]

/-! The session invariant. -/

/-- In phase IDLE only the disabled handlers and the widths are left of the invariant. -/
theorem SessionInv.of_idle {s : State} (hp : s.phase = .idle) (he : s.evEn = 0) (hw : WidthsFit s) : SessionInv s := by
  have hna : s.phase ≠ .active := by rw [hp]; decide
  exact ⟨fun _ => he, fun h => absurd h hna, fun h => absurd h hna, fun h => absurd h hna, fun h => absurd h hna,
    fun h => absurd h hna, hw⟩

/-- The invariant does not read the model's own result and calls. -/
theorem SessionInv.finish {s : State} (h : SessionInv s) (r : Result) (cs : List SourceCall) :
    SessionInv (s.finish r cs) := h

/-- The invariant does not read the inbox. -/
theorem SessionInv.with_inbox {s : State} (h : SessionInv s) (xs : List Input) :
    SessionInv { s with inbox := xs } := h

/-- The invariant does not read `dir` (R104). -/
theorem SessionInv.clearDir {s : State} (h : SessionInv s) : SessionInv s.clearDir := h

/-- The invariant does not read `last_dir` and `dir` (R63). -/
theorem SessionInv.writeBack {s : State} (h : SessionInv s) (d : Direction) : SessionInv (s.writeBack d) := h

/-- LookupTable may hold any `abAB` (R13). -/
theorem SessionInv.setAbAB {s : State} (h : SessionInv s) (hm : s.cfgMode = .lookupTable) (v : BitVec 4) :
    SessionInv (s.setAbAB v) := by
  obtain ⟨hidle, hpins, hen, -, hrow, hbtn, hw⟩ := h
  exact ⟨hidle, hpins, hen, fun _ hne => absurd hm hne, hrow, hbtn, hw⟩

/-- `tstate` may be any row of the mode's table (R14). -/
theorem SessionInv.setTstate {s : State} (h : SessionInv s) {v : BitVec 4} (hv : v.toNat ≤ lastRow s.cfgMode) :
    SessionInv (s.setTstate v) := by
  obtain ⟨hidle, hpins, hen, hab, -, hbtn, hw⟩ := h
  exact ⟨hidle, hpins, hen, hab, fun _ => hv, hbtn, hw⟩

/-- With no button both levels are 0, and `Settle` leaves them so (R91, R94). -/
theorem SessionInv.settle {s : State} (h : SessionInv s) (now : Nat) : SessionInv (s.settle now) := by
  obtain ⟨hidle, hpins, hen, hab, hrow, hbtn, hw⟩ := h
  refine ⟨hidle, hpins, hen, hab, hrow, fun ha hn => ?_, hw⟩
  obtain ⟨hlevel, ht, hout⟩ := hbtn ha hn
  refine ⟨hlevel, ht, ?_⟩
  rw [State.settle_btnOut, hlevel, hout, ite_self]

/-- With a button attached any level and time may be recorded, the time at its width (R19, R90). -/
theorem SessionInv.recordButton {s : State} (h : SessionInv s) (hb : s.cfgBtnPin ≠ s.params.pinNone) (l : Level)
    (now : Nat) : SessionInv (s.recordButton l now) := by
  obtain ⟨hidle, hpins, hen, hab, hrow, -, hA, hB, hBtn, hDelay, -⟩ := h
  exact ⟨hidle, hpins, hen, hab, hrow, fun _ hn => absurd hn hb, hA, hB, hBtn, hDelay, s.params.time_lt now⟩

/-- The undefined registers of TEARDOWN have their widths (R26, R106). -/
theorem widthsFit_tear (s : State) : WidthsFit s.tear :=
  ⟨s.params.pin_lt _, s.params.pin_lt _, s.params.pin_lt _, s.params.time_lt _, s.params.time_lt _⟩

/-- A closed session meets the invariant when its registers have their widths (R106). -/
theorem sessionInv_closeSession {s : State} (hw : WidthsFit s) : SessionInv s.closeSession := .of_idle rfl rfl hw

/-- `ev_en` has the button's bit only with a button attached (R12). -/
theorem EnablesMatch.hasButton {s : State} (h : EnablesMatch s) (ha : s.accepts .button = true) :
    s.cfgBtnPin ≠ s.params.pinNone := by
  obtain ⟨hp, hbit⟩ := (s.accepts_iff .button).1 ha
  intro hn
  rw [h hp, if_pos hn] at hbit
  split at hbit <;> exact absurd hbit (by decide)

/-- `want` (R100) is the `ev_en` of the invariant (R12). -/
theorem wantedHandlers_eq (m : Mode) (b n : Nat) :
    wantedHandlers m (b != n) =
      (if m = .singleEdge then 0b00001#5 else 0b01111#5) ||| (if b = n then 0b00000#5 else 0b10000#5) := by
  simp only [wantedHandlers, bne_iff_ne, ne_eq, ite_not]

/-- A session opens in the invariant when its pins do not collide and its operands have their widths (R100, R101). -/
theorem sessionInv_openSession (s : State) (c : InitOperands) (m : Mode)
    (hpins : pinsCollide (c.atWidths s.params) s.params.pinNone = false) :
    SessionInv (s.openSession (c.atWidths s.params) m
      (wantedHandlers m ((c.atWidths s.params).btnPin != s.params.pinNone))) := by
  obtain ⟨hA, hB, hAB, hBtn⟩ := (pinsCollide_eq_false_iff _ _).1 hpins
  exact ⟨nofun, fun _ => ⟨hAB, hA, hB, hBtn⟩, fun _ => wantedHandlers_eq ..,
    fun _ _ => rfl, fun _ => Nat.zero_le _, fun _ _ => ⟨rfl, rfl, rfl⟩,
    s.params.pin_lt _, s.params.pin_lt _, s.params.pin_lt _, s.params.time_lt _, Nat.two_pow_pos _⟩

/-- INIT in phase IDLE keeps the invariant, whatever it answers (R100). -/
theorem SessionInv.of_initSession {s : State} (hs : SessionInv s) (c : InitOperands) :
    SessionInv (initSession (c.atWidths s.params) s) := by
  obtain h | ⟨cs, h⟩ | ⟨m, cs, -, hpins, -, h⟩ := initSession_cases (c.atWidths s.params) s
  · exact h ▸ hs.finish ..
  · exact h ▸ hs.finish ..
  · exact h ▸ (sessionInv_openSession s c m hpins).finish ..

/-- A decode with a row where `c` holds and none elsewhere ends in a row of its range (R35). -/
theorem row_le_of_range {x : Option (Direction × BitVec 4)} {c : Prop} [Decidable c] {last : Nat} {d : Direction}
    {n : BitVec 4} (hr : if c then ∃ d n, x = some (d, n) ∧ n.toNat ≤ last else x = none) (h : x = some (d, n)) :
    n.toNat ≤ last := by
  split at hr
  next =>
    obtain ⟨d', n', hd, hn⟩ := hr
    cases h.symm.trans hd
    exact hn
  next => cases h.symm.trans hr

/-- The decode of the current mode keeps the invariant: it writes the decoder register of that mode only, and a row
register only with a row of its table (R13, R14). -/
theorem SessionInv.of_runMode {s s' : State} {a b : Int} {d : Direction} (hs : SessionInv s)
    (h : runMode s.cfgMode a b s = some (d, s')) : SessionInv s' := by
  obtain ⟨-, -, rfl⟩ | ⟨hm, -, hs'⟩ | ⟨hm, hd, hs'⟩ | ⟨hm, hd, hs'⟩ := runMode_some h
  · exact hs
  · rw [hs']
    exact hs.setAbAB hm _
  · rw [hs']
    exact hs.setTstate (hm ▸ row_le_of_range (decodeHs_range ..) hd)
  · rw [hs']
    exact hs.setTstate (hm ▸ row_le_of_range (decodeFs_range ..) hd)

/-- An edge row of the current mode keeps the invariant (R62, R63). -/
theorem SessionInv.of_exec_edgeInstr {s t : State} {k : EdgeKind} {a b : Int} (hs : SessionInv s)
    (h : exec (edgeInstr k s.cfgMode a b) s = .next t) : SessionInv t := by
  obtain ⟨-, rfl⟩ | ⟨d, s', -, hd, rfl⟩ := exec_edgeInstr_next h
  · exact hs.finish ..
  · exact ((hs.of_runMode hd).writeBack d).finish ..

/-- TEARDOWN ends in the invariant, from a live session or from IDLE (R106). -/
theorem SessionInv.of_exec_teardown {s t : State} (hs : SessionInv s) (h : exec .teardown s = .next t) : SessionInv t := by
  obtain ⟨-, -, -, -, -, -, hw⟩ := hs
  rw [exec_teardown_next h]
  split
  · exact (sessionInv_closeSession (widthsFit_tear s)).finish ..
  · exact (sessionInv_closeSession hw).finish ..

/-- BTN_EDGE keeps the invariant: accepted, there is a button (R90, R12). -/
theorem SessionInv.of_exec_btnEdge {s t : State} {l : Int} {now : Nat} (hs : SessionInv s)
    (h : exec (.btnEdge l now) s = .next t) : SessionInv t := by
  obtain ⟨-, rfl⟩ | ⟨ha, rfl⟩ := exec_btnEdge_next h
  · exact hs.finish ..
  · have ⟨_, _, hen, _⟩ := hs
    exact ((hs.settle now).recordButton (hen.hasButton ha) _ now).finish ..

/-- Every operation keeps the invariant, an edge row in its own mode (log 12). -/
theorem SessionInv.of_exec {i : Instr} {s t : State} (hs : SessionInv s)
    (hrow : (∃ k a b, i = edgeInstr k s.cfgMode a b) ∨ edgeKindOf i = none) (h : exec i s = .next t) :
    SessionInv t := by
  obtain ⟨k, a, b, rfl⟩ | hne := hrow
  · exact hs.of_exec_edgeInstr h
  obtain ⟨c, rfl⟩ | rfl | rfl | ⟨now, rfl⟩ | ⟨k, m, a, b, rfl⟩ | ⟨l, now, rfl⟩ | ⟨now, rfl⟩ := instr_cases i
  · obtain ⟨-, rfl⟩ := exec_init_next h
    exact hs.of_initSession c
  · exact hs.of_exec_teardown h
  · obtain ⟨-, rfl⟩ := exec_readDir_next h
    exact hs.clearDir.finish ..
  · obtain ⟨-, rfl⟩ := exec_readBtn_next h
    exact hs.finish ..
  · rw [edgeKindOf_edgeInstr] at hne
    cases hne
  · exact hs.of_exec_btnEdge h
  · obtain ⟨-, rfl⟩ | ⟨-, rfl⟩ := exec_btnTick_next h
    · exact hs.finish ..
    · exact (hs.settle now).finish ..

/-! The result-pending flag (R22). -/

/-- Ending an operation leaves the flag. -/
@[simp] theorem resultPending_finish (s : State) (r : Result) (cs : List SourceCall) :
    resultPending (s.finish r cs) = resultPending s := rfl

/-- The write-back sets the flag on a direction that is not 0 and keeps it otherwise (R63). -/
theorem resultPending_writeBack (s : State) (d : Direction) :
    resultPending (s.writeBack d) = (resultPending s || d != .zero) := by
  by_cases hd : d = .zero <;> simp [resultPending, hd]

/-- The write-back never clears `dir` (R63). -/
theorem State.writeBack_dir_kept_or_set (s : State) (d : Direction) :
    (s.writeBack d).dir = s.dir ∨ (s.writeBack d).dir ≠ .zero := by
  by_cases hd : d = .zero
  · exact .inl (by rw [State.writeBack_dir, if_pos hd])
  · exact .inr (by rwa [State.writeBack_dir, if_neg hd])

/-- An edge row makes an emission exactly when it is accepted and leaves a direction that is not 0 (R63). -/
theorem isSome_emissionOf_edgeInstr (k : EdgeKind) (m : Mode) (a b : Int) (s t : State) :
    (emissionOf (edgeInstr k m a b) s t).isSome = (s.accepts (.edge k) && t.lastDir != .zero) := by
  simp only [emissionOf, edgeKindOf_edgeInstr]
  split
  next h => simp [h]
  next h => simpa using h

/-- An edge row sets the flag exactly by an emission (R22). -/
theorem resultPending_edge {k : EdgeKind} {m : Mode} {a b : Int} {s t : State}
    (h : exec (edgeInstr k m a b) s = .next t) :
    resultPending t = (resultPending s || (emissionOf (edgeInstr k m a b) s t).isSome) := by
  rw [isSome_emissionOf_edgeInstr]
  obtain ⟨ha, rfl⟩ | ⟨d, s', ha, hd, rfl⟩ := exec_edgeInstr_next h
  · simp [ha]
  · have hkeep : resultPending s' = resultPending s := by simp only [resultPending, runMode_dir hd]
    simp [resultPending_writeBack, hkeep, ha]

/-- An edge row writes decoder registers, `last_dir` and `dir` only, and never clears `dir` (R23, R63). -/
theorem exec_edgeInstr_frame {k : EdgeKind} {m : Mode} {a b : Int} {s t : State}
    (h : exec (edgeInstr k m a b) s = .next t) :
    t = { s with
      abAB := t.abAB, tstate := t.tstate, lastDir := t.lastDir, dir := t.dir, result := .none, calls := [] } ∧
    (t.dir = s.dir ∨ t.dir ≠ .zero) := by
  obtain ⟨-, rfl⟩ | ⟨d, s', -, hd, rfl⟩ := exec_edgeInstr_next h
  · exact ⟨rfl, .inl rfl⟩
  · refine ⟨?_, runMode_dir hd ▸ s'.writeBack_dir_kept_or_set d⟩
    rw [runMode_frame hd]
    rfl

/-- BTN_EDGE writes button registers only (R23, R90). -/
theorem exec_btnEdge_frame {l : Int} {now : Nat} {s t : State} (h : exec (.btnEdge l now) s = .next t) :
    t = { s with btnLevel := t.btnLevel, btnT := t.btnT, btnOut := t.btnOut, result := .none, calls := [] } := by
  obtain ⟨-, rfl⟩ | ⟨-, rfl⟩ := exec_btnEdge_next h <;> rfl

/-- BTN_TICK writes `btn_out` only (R23, R92). -/
theorem exec_btnTick_frame {now : Nat} {s t : State} (h : exec (.btnTick now) s = .next t) :
    t = { s with btnOut := t.btnOut, result := .none, calls := [] } := by
  obtain ⟨-, rfl⟩ | ⟨-, rfl⟩ := exec_btnTick_next h <;> rfl

/-! The statements. -/

/-- Settles O46: a step does nothing or runs one operation, an edge row being one of the current mode, and every
such operation keeps the invariant. -/
theorem stepKeepsTheSessionInvariant : Obligations.StepKeepsTheSessionInvariant := by
  intro s t hs h
  obtain ⟨-, rfl⟩ | ⟨x, rest, i, -, hi, hexec⟩ := step_next h
  · exact hs
  · exact (hs.with_inbox rest).of_exec (decodeInput_edge hi) hexec

/-- Settles O45: after power-on the block is idle, nothing is enabled and every register is 0. -/
theorem sessionInvariantAtReset : Obligations.SessionInvariantAtReset :=
  .of_idle rfl rfl (by decide)

/-- Settles O48: the handler's three kinds of operation and the consumer's two, each with its frame. -/
theorem agentsWriteOnlyTheirRegisters : Obligations.AgentsWriteOnlyTheirRegisters := by
  intro i s t h
  refine ⟨fun ha => ?_, fun ha => ?_⟩
  · obtain ⟨k, m, a, b, rfl⟩ | ⟨l, now, rfl⟩ | ⟨now, rfl⟩ := handler_cases ha
    · obtain ⟨hframe, hdir⟩ := exec_edgeInstr_frame h
      refine ⟨?_, hdir⟩
      rw [hframe]
    · rw [exec_btnEdge_frame h]
      exact ⟨rfl, .inl rfl⟩
    · rw [exec_btnTick_frame h]
      exact ⟨rfl, .inl rfl⟩
  · obtain rfl | ⟨now, rfl⟩ := consumer_cases ha
    · obtain ⟨-, rfl⟩ := exec_readDir_next h
      exact ⟨rfl, .inr rfl⟩
    · obtain ⟨-, rfl⟩ := exec_readBtn_next h
      exact ⟨rfl, .inl rfl⟩

/-- Settles O52: only the write-back of an edge row sets the flag and only READ_DIR clears it. -/
theorem resultPendingIsSticky : Obligations.ResultPendingIsSticky := by
  refine ⟨rfl, fun i s t h => ⟨fun hk => ?_, ?_, ?_⟩⟩
  · obtain ⟨k, m, a, b, rfl⟩ := edge_cases hk
    exact resultPending_edge h
  · rintro (⟨l, now, rfl⟩ | ⟨now, rfl⟩ | ⟨now, rfl⟩)
    · rw [exec_btnEdge_frame h]
      rfl
    · rw [exec_btnTick_frame h]
      rfl
    · obtain ⟨-, rfl⟩ := exec_readBtn_next h
      rfl
  · rintro rfl
    obtain ⟨-, rfl⟩ := exec_readDir_next h
    rfl

end Sys2Proof.Machine
end

section
/-! PROOFS. The statements of 20_memory.md: the range of the table reads (R35), the configuration within a session (R41), what
READ_DIR returns (R38), and READ_DIR ordered before an edge operation (R40). -/

namespace Sys2Proof.Machine

/-! The transition tables (R30 to R35). -/

/-- A table read inside a table with four columns and no next row outside it gives an entry, whose next row is again
inside (R35). -/
theorem romReadRow_of_lt {rows : List (List (BitVec 8))} {r : BitVec 4}
    (hclosed : ∀ row ∈ rows, row.length = 4 ∧ ∀ e ∈ row, (entryNextRow e).toNat < rows.length)
    (hr : r.toNat < rows.length) (c : BitVec 2) :
    ∃ e, romReadRow rows r c = some e ∧ (entryNextRow e).toNat < rows.length := by
  obtain ⟨hlen, hnext⟩ := hclosed _ (List.getElem_mem hr)
  have hc : c.toNat < rows[r.toNat].length := by rw [hlen]; exact c.isLt
  refine ⟨rows[r.toNat][c.toNat], ?_, hnext _ (List.getElem_mem hc)⟩
  rw [romReadRow, List.getElem?_eq_getElem hr, Option.bind_some, List.getElem?_eq_getElem hc]

/-- A table read below the last row gives nothing (R35). -/
theorem romReadRow_of_le {rows : List (List (BitVec 8))} {r : BitVec 4} (hr : rows.length ≤ r.toNat) (c : BitVec 2) :
    romReadRow rows r c = none := by
  rw [romReadRow, List.getElem?_eq_none hr, Option.bind_none]

/-- `HS` has the rows 0 to 5, and every next row is one of them (R32, R35). -/
theorem romReadHs_of_le {r : BitVec 4} (hr : r.toNat ≤ 5) (c : BitVec 2) :
    ∃ e, romReadHs r c = some e ∧ (entryNextRow e).toNat ≤ 5 := by
  obtain ⟨e, he, hnext⟩ := romReadRow_of_lt (rows := hsRows) (by decide) (Nat.lt_succ_of_le hr) c
  exact ⟨e, he, Nat.le_of_lt_succ hnext⟩

/-- `FS` has the rows 0 to 6, and every next row is one of them (R33, R35). -/
theorem romReadFs_of_le {r : BitVec 4} (hr : r.toNat ≤ 6) (c : BitVec 2) :
    ∃ e, romReadFs r c = some e ∧ (entryNextRow e).toNat ≤ 6 := by
  obtain ⟨e, he, hnext⟩ := romReadRow_of_lt (rows := fsRows) (by decide) (Nat.lt_succ_of_le hr) c
  exact ⟨e, he, Nat.le_of_lt_succ hnext⟩

/-- The HalfStep decode fails on a `tstate` that is no row of `HS` (R35). -/
theorem runMode_halfStep_eq_none {s : State} (h : 6 ≤ s.tstate.toNat) (a b : Int) : runMode .halfStep a b s = none := by
  have hd := decodeHs_range s.tstate (normLevel a) (normLevel b)
  rw [if_neg (by omega)] at hd
  rw [runMode, runHs, hd, Option.map_none]

/-- The FullStep decode fails on a `tstate` that is no row of `FS` (R35). -/
theorem runMode_fullStep_eq_none {s : State} (h : 7 ≤ s.tstate.toNat) (a b : Int) : runMode .fullStep a b s = none := by
  have hd := decodeFs_range s.tstate (normLevel a) (normLevel b)
  rw [if_neg (by omega)] at hd
  rw [runMode, runFs, hd, Option.map_none]

/-- An accepted edge row whose decode fails stops by name (R35). -/
theorem exec_edgeInstr_of_none {k : EdgeKind} {m : Mode} {a b : Int} {s : State} (ha : s.accepts (.edge k) = true)
    (hd : runMode m a b s = none) : exec (edgeInstr k m a b) s = .refused .rowOutOfRange := by
  rw [exec_edgeInstr, trigger_of_none ha hd]

/-- An accepted edge row whose decode succeeds writes back its direction (R62, R63). -/
theorem exec_edgeInstr_of_some {k : EdgeKind} {m : Mode} {a b : Int} {s s' : State} {d : Direction}
    (ha : s.accepts (.edge k) = true) (hd : runMode m a b s = some (d, s')) :
    exec (edgeInstr k m a b) s = .next ((s'.writeBack d).finish .none []) := by
  rw [exec_edgeInstr, trigger_of_some ha hd]

/-- An edge row that is not accepted is ignored (R60). -/
theorem exec_edgeInstr_of_not_accepts {k : EdgeKind} {m : Mode} {a b : Int} {s : State}
    (ha : s.accepts (.edge k) = false) : exec (edgeInstr k m a b) s = .next (s.finish .none []) := by
  rw [exec_edgeInstr, trigger_of_not_accepts (by simp [ha])]

/-! The configuration (R41). -/

/-- The operations of the owner (R46). -/
theorem owner_cases {i : Instr} (h : agentOf i = .owner) : (∃ c, i = .init c) ∨ i = .teardown := by
  obtain hi | hi | rfl | ⟨now, rfl⟩ | ⟨k, m, a, b, rfl⟩ | ⟨l, now, rfl⟩ | ⟨now, rfl⟩ := instr_cases i
  · exact .inl hi
  · exact .inr hi
  · cases h
  · cases h
  · rw [agentOf_edgeInstr] at h; cases h
  · cases h
  · cases h

/-- An operation of the owner begins or ends a session (R107). -/
theorem exec_owner_phase {i : Instr} {s t : State} (ho : agentOf i = .owner) (h : exec i s = .next t) :
    s.phase = .idle ∨ t.phase = .idle := by
  obtain ⟨c, rfl⟩ | rfl := owner_cases ho
  · exact .inl (exec_init_next h).1
  · exact .inr (by rw [exec_teardown_next h]; rfl)

/-- An operation of the handler or the consumer writes no configuration register, `ev_en` or `phase` (R23, R41). -/
theorem exec_frame_of_ne_owner {i : Instr} {s t : State} (ho : agentOf i ≠ .owner) (h : exec i s = .next t) :
    t = { s with
      abAB := t.abAB, tstate := t.tstate, lastDir := t.lastDir, dir := t.dir
      btnLevel := t.btnLevel, btnT := t.btnT, btnOut := t.btnOut, result := t.result, calls := [] } := by
  obtain ⟨hhandler, hconsumer⟩ := agentsWriteOnlyTheirRegisters i s t h
  cases ha : agentOf i with
  | handler => rw [(hhandler ha).1]
  | consumer => rw [(hconsumer ha).1]
  | owner => exact absurd ha ho

/-! Emissions (R16, R38). -/

/-- An edge row that is not accepted emits nothing (R60). -/
theorem emissionOf_edgeInstr_of_not_accepts {k : EdgeKind} {s : State} (ha : s.accepts (.edge k) = false) (m : Mode)
    (a b : Int) (t : State) : emissionOf (edgeInstr k m a b) s t = none := by
  simp [emissionOf, ha]

/-- An accepted edge row emits the direction it leaves in `last_dir`, unless that is 0 (R63). -/
theorem emissionOf_edgeInstr_of_accepts {k : EdgeKind} {s : State} (ha : s.accepts (.edge k) = true) (m : Mode)
    (a b : Int) (t : State) :
    emissionOf (edgeInstr k m a b) s t = if t.lastDir = .zero then none else some t.lastDir := by
  simp [emissionOf, ha]

/-- The write-back leaves in `dir` the emission, or the old value when there was none (R63). -/
theorem State.writeBack_dir_eq_getD (s : State) (d : Direction) :
    (s.writeBack d).dir = (if d = .zero then none else some d).getD s.dir := by
  cases d <;> rfl

/-- An edge row leaves in `dir` its emission, or the old value when there was none (R16, R63). -/
theorem exec_edgeInstr_dir {k : EdgeKind} {m : Mode} {a b : Int} {s t : State}
    (h : exec (edgeInstr k m a b) s = .next t) : t.dir = (emissionOf (edgeInstr k m a b) s t).getD s.dir := by
  obtain ⟨ha, rfl⟩ | ⟨d, s', ha, hd, rfl⟩ := exec_edgeInstr_next h
  · rw [emissionOf_edgeInstr_of_not_accepts ha]
    rfl
  · rw [emissionOf_edgeInstr_of_accepts ha, ← runMode_dir hd]
    exact s'.writeBack_dir_eq_getD d

/-- Within a session, an operation other than READ_DIR and TEARDOWN leaves in `dir` its emission, or the old value when
there was none, and the session stays live (R38). -/
theorem exec_dir_of_active {i : Instr} {s t : State} (hs : s.phase = .active) (hi : i ≠ .readDir ∧ i ≠ .teardown)
    (h : exec i s = .next t) : t.phase = .active ∧ t.dir = (emissionOf i s t).getD s.dir := by
  obtain ⟨hread, htear⟩ := hi
  obtain ⟨c, rfl⟩ | rfl | rfl | ⟨now, rfl⟩ | ⟨k, m, a, b, rfl⟩ | ⟨l, now, rfl⟩ | ⟨now, rfl⟩ := instr_cases i
  · cases hs.symm.trans (exec_init_next h).1
  · exact absurd rfl htear
  · exact absurd rfl hread
  · obtain ⟨-, rfl⟩ := exec_readBtn_next h
    exact ⟨hs, rfl⟩
  · refine ⟨?_, exec_edgeInstr_dir h⟩
    rw [(exec_edgeInstr_frame h).1]
    exact hs
  · rw [exec_btnEdge_frame h]
    exact ⟨hs, rfl⟩
  · rw [exec_btnTick_frame h]
    exact ⟨hs, rfl⟩

/-- A run that completes begins with an operation that completes. -/
theorem execAll_cons_eq_some {i : Instr} {is : List Instr} {s t : State} (h : execAll (i :: is) s = some t) :
    ∃ u, exec i s = .next u ∧ execAll is u = some t := by
  rw [execAll] at h
  split at h
  next u hu => exact ⟨u, hu, h⟩
  next => cases h
  next => cases h

/-- The emissions of a run whose first operation completes. -/
theorem emissions_cons {i : Instr} {s u : State} (h : exec i s = .next u) (is : List Instr) :
    emissions (i :: is) s = (emissionOf i s u).toList ++ emissions is u := by
  rw [emissions, h]

/-- The last element of a list with an optional element before it. -/
theorem getLast?_toList_append_getD {α : Type} (o : Option α) (l : List α) (d : α) :
    (o.toList ++ l).getLast?.getD d = l.getLast?.getD (o.getD d) := by
  cases o with
  | none => rfl
  | some x => simp [List.getLast?_cons]

/-- Within a session, a run without READ_DIR and TEARDOWN leaves in `dir` its last emission, or the old value when there was
none (R38). -/
theorem execAll_dir {is : List Instr} {s t : State} (hs : s.phase = .active)
    (his : ∀ i ∈ is, i ≠ .readDir ∧ i ≠ .teardown) (h : execAll is s = some t) :
    t.phase = .active ∧ t.dir = (emissions is s).getLast?.getD s.dir := by
  induction is generalizing s with
  | nil => cases h; exact ⟨hs, rfl⟩
  | cons i is ih =>
    rw [List.forall_mem_cons] at his
    obtain ⟨u, hu, hrest⟩ := execAll_cons_eq_some h
    obtain ⟨hphase, hdir⟩ := exec_dir_of_active hs his.1 hu
    rw [emissions_cons hu, getLast?_toList_append_getD, ← hdir]
    exact ih hphase his.2 hrest

/-! READ_DIR ordered before an edge operation (R40). -/

/-- READ_DIR in a session (R104). -/
theorem exec_readDir_of_active {s : State} (h : s.phase = .active) :
    exec .readDir s = .next (s.clearDir.finish (.direction s.dir) []) := by
  simp only [exec, execReadDir, h, if_pos]

/-- The decode of a mode reads neither `dir` nor the result and the calls, and leaves them (R62). -/
theorem runMode_clearDir_finish (m : Mode) (a b : Int) (s : State) (r : Result) (cs : List SourceCall) :
    runMode m a b (s.clearDir.finish r cs) =
      (runMode m a b s).map fun p => (p.1, p.2.clearDir.finish r cs) := by
  cases m with
  | singleEdge => rfl
  | lookupTable => rfl
  | halfStep => simp only [runMode, runHs, Option.map_map]; rfl
  | fullStep => simp only [runMode, runFs, Option.map_map]; rfl

/-- After READ_DIR an edge row that completes makes the same emission, and ends as it would have without READ_DIR but that
`dir` holds that emission, or 0 when there was none (R40). -/
theorem exec_edgeInstr_clearDir {k : EdgeKind} {m : Mode} {a b : Int} {s t : State} (r : Result)
    (h : exec (edgeInstr k m a b) s = .next t) :
    ∃ v, exec (edgeInstr k m a b) (s.clearDir.finish r []) = .next v ∧
      emissionOf (edgeInstr k m a b) (s.clearDir.finish r []) v = emissionOf (edgeInstr k m a b) s t ∧
      v = { t with dir := (emissionOf (edgeInstr k m a b) s t).getD .zero } := by
  have hacc : (s.clearDir.finish r []).accepts (.edge k) = s.accepts (.edge k) := rfl
  obtain ⟨ha, rfl⟩ | ⟨d, s', ha, hd, rfl⟩ := exec_edgeInstr_next h
  · refine ⟨_, exec_edgeInstr_of_not_accepts (hacc.trans ha), ?_⟩
    rw [emissionOf_edgeInstr_of_not_accepts ha, emissionOf_edgeInstr_of_not_accepts (hacc.trans ha)]
    exact ⟨rfl, rfl⟩
  · have hd' : runMode m a b (s.clearDir.finish r []) = some (d, s'.clearDir.finish r []) := by
      rw [runMode_clearDir_finish, hd, Option.map_some]
    refine ⟨_, exec_edgeInstr_of_some (hacc.trans ha) hd', ?_⟩
    rw [emissionOf_edgeInstr_of_accepts ha, emissionOf_edgeInstr_of_accepts (hacc.trans ha)]
    refine ⟨rfl, ?_⟩
    cases d <;> rfl

/-! The statements. -/

/-- Settles O19: both tables are closed under their next rows, and outside them the decode of an accepted row fails. -/
theorem transitionTablesStayInRange : Obligations.TransitionTablesStayInRange := by
  refine ⟨fun r c => ⟨fun h => romReadHs_of_le h c, fun h => romReadRow_of_le (rows := hsRows) h c,
    fun h => romReadFs_of_le h c, fun h => romReadRow_of_le (rows := fsRows) h c⟩, ?_⟩
  intro k a b s hp he
  have ha : s.accepts (.edge k) = true := (s.accepts_iff _).2 ⟨hp, he⟩
  exact ⟨fun h => exec_edgeInstr_of_none ha (runMode_halfStep_eq_none h a b),
    fun h => exec_edgeInstr_of_none ha (runMode_fullStep_eq_none h a b)⟩

/-- Settles O47: a step within a session applies no operation of the owner, and no other operation writes these
registers. -/
theorem configurationIsFixedWithinASession : Obligations.ConfigurationIsFixedWithinASession := by
  intro s t h hs ht
  obtain ⟨-, rfl⟩ | ⟨x, rest, i, -, -, hi⟩ := step_next h
  · exact ⟨rfl, rfl, rfl, rfl, rfl, rfl⟩
  · have ho : agentOf i ≠ .owner := by
      intro ho
      obtain hidle | hidle := exec_owner_phase ho hi
      · cases hs.symm.trans hidle
      · cases ht.symm.trans hidle
    rw [exec_frame_of_ne_owner ho hi]
    exact ⟨rfl, rfl, rfl, rfl, rfl, rfl⟩

/-- Settles O50: after the run `dir` holds the last emission, or still 0, by induction on the run. -/
theorem readDirReturnsTheLastEmission : Obligations.ReadDirReturnsTheLastEmission := by
  intro is s t hs hdir his h
  obtain ⟨hphase, hlast⟩ := execAll_dir hs his h
  rw [exec_readDir_of_active hphase, hlast, hdir]
  rfl

/-- Settles O51: an edge row reads nothing that READ_DIR writes, so it decodes the same direction after it. -/
theorem readThenEmitLosesNothing : Obligations.ReadThenEmitLosesNothing := by
  intro i s t hs hk h
  obtain ⟨k, m, a, b, rfl⟩ := edge_cases hk
  obtain ⟨v, hv, hemission, hend⟩ := exec_edgeInstr_clearDir (.direction s.dir) h
  exact ⟨_, v, exec_readDir_of_active hs, rfl, hv, hemission, hend⟩

end Sys2Proof.Machine
end

section
/-! PROOFS. The statements of 30_encoding.md: the decoder against the encoder and the operation codes (R45, R46, R55), the
reserved encodings (R53), the direction codes (R50), the input forms (R118) and the nibbles of a table entry (R47). -/

namespace Sys2Proof

/-! The parts of an event word and of a key (R45). -/

/-- The operation code of an edge operation (R46). -/
def EdgeKind.opCode : EdgeKind → BitVec 4
  | .aRise => 0x4
  | .aFall => 0x5
  | .bRise => 0x6
  | .bFall => 0x7

@[simp] theorem word_edgeInstr (k : EdgeKind) (m : Mode) (a b : Int) :
    (edgeInstr k m a b).word = wordE k.opCode a b := by
  cases k <;> cases m <;> rfl

@[simp] theorem modeBits_edgeInstr (k : EdgeKind) (m n : Mode) (a b : Int) : (edgeInstr k m a b).modeBits n = m := by
  cases k <;> cases m <;> rfl

@[simp] theorem wf_edgeInstr (p : Params) (k : EdgeKind) (m : Mode) (a b : Int) :
    (edgeInstr k m a b).wf p = levelsWf a b := by
  cases k <;> cases m <;> rfl

@[simp] theorem levelsWf_ofPort (a b : Level) : levelsWf (ofPort a) (ofPort b) = true := by
  rw [levelsWf, levelWf_ofPort, levelWf_ofPort, Bool.and_self]

/-- The operation code is the upper nibble as a number (R45). -/
theorem toNat_opField (w : BitVec 8) : (opField w).toNat = w.toNat / 16 := by
  revert w; decide

/-- A word is its operation code and its argument (R45). -/
theorem opField_append_argField (w : BitVec 8) : opField w ++ argField w = w :=
  (BitVec.extractLsb'_append_extractLsb'_eq_extractLsb' rfl).trans BitVec.extractLsb'_eq_self

/-- A key is the event key of its mode bits and its event word (R45). -/
@[simp] theorem eventKey_keyMode_keyWord (k : BitVec 10) : eventKey (keyMode k) (keyWord k) = k := by
  rw [eventKey, keyMode, Mode.code_ofCode, keyWord]
  exact (BitVec.extractLsb'_append_extractLsb'_eq_extractLsb' rfl).trans BitVec.extractLsb'_eq_self

/-- The key of an event is decoded as its word in its mode (R45). -/
@[simp] theorem decode_eventKey (m : Mode) (w : BitVec 8) (side : SideBand) :
    decode (eventKey m w) side = decodeWord m w side := by
  rw [decode, keyMode_eventKey, keyWord_eventKey]

/-! The three formats (R45): what the words of a format decode to, and that the decoder accepts no other word. -/

@[simp] theorem opField_wordN (op : BitVec 4) : opField (wordN op) = op := extract_append_upper op 0b0000#4

@[simp] theorem argField_wordN (op : BitVec 4) : argField (wordN op) = 0 := extract_append_lower op 0b0000#4

/-- The fields of a format E word are the parts it is put together from (R45). -/
theorem fields_wordE (op : BitVec 4) (a b : Int) :
    opField (wordE op a b) = op ∧ (wordE op a b).extractLsb' 2 2 = 0 ∧
      (wordE op a b).extractLsb' 1 1 = normLevel a ∧ (wordE op a b).extractLsb' 0 1 = normLevel b := by
  rw [wordE]
  generalize normLevel a = x, normLevel b = y
  revert op x y; decide

/-- The fields of a format B word are the parts it is put together from (R45). -/
theorem fields_wordB (op : BitVec 4) (l : Int) :
    opField (wordB op l) = op ∧ (wordB op l).extractLsb' 1 3 = 0 ∧ (wordB op l).extractLsb' 0 1 = normLevel l := by
  rw [wordB]
  generalize normLevel l = x
  revert op x; decide

@[simp] theorem opField_wordE (op : BitVec 4) (a b : Int) : opField (wordE op a b) = op := (fields_wordE op a b).1

@[simp] theorem opField_wordB (op : BitVec 4) (l : Int) : opField (wordB op l) = op := (fields_wordB op l).1

theorem decodeN_wordN (op : BitVec 4) (i : Instr) : decodeN (wordN op) i = .instr i :=
  if_pos (argField_wordN op)

theorem decodeE_wordE {a b : Int} (h : levelsWf a b = true) (m : Mode) (k : EdgeKind) (op : BitVec 4) :
    decodeE m k (wordE op a b) = .instr (edgeInstr k m a b) := by
  obtain ⟨ha, hb⟩ := (Bool.and_eq_true ..).mp h
  obtain ⟨-, hreserved, hfa, hfb⟩ := fields_wordE op a b
  rw [decodeE, if_pos hreserved, hfa, hfb, ofPort_normLevel ha, ofPort_normLevel hb]

theorem decodeB_wordB {l : Int} (h : levelWf l = true) (op : BitVec 4) (now : Nat) :
    decodeB (wordB op l) now = .instr (.btnEdge l now) := by
  obtain ⟨-, hreserved, hl⟩ := fields_wordB op l
  rw [decodeB, if_pos hreserved, hl, ofPort_normLevel h]

theorem decodeN_eq_instr {w : BitVec 8} {i j : Instr} (h : decodeN w j = .instr i) :
    w = wordN (opField w) ∧ i = j := by
  rw [decodeN] at h
  split at h
  next harg =>
    cases h
    refine ⟨?_, rfl⟩
    rw [wordN, show 0b0000#4 = argField w from harg.symm, opField_append_argField]
  next => cases h

theorem decodeE_eq_instr {m : Mode} {k : EdgeKind} {w : BitVec 8} {i : Instr} (h : decodeE m k w = .instr i) :
    ∃ a b, levelsWf a b = true ∧ w = wordE (opField w) a b ∧ i = edgeInstr k m a b := by
  rw [decodeE] at h
  split at h
  next hreserved =>
    cases h
    refine ⟨_, _, levelsWf_ofPort _ _, ?_, rfl⟩
    rw [wordE, normLevel_ofPort, normLevel_ofPort]
    revert w; decide
  next => cases h

theorem decodeB_eq_instr {w : BitVec 8} {now : Nat} {i : Instr} (h : decodeB w now = .instr i) :
    ∃ l, levelWf l = true ∧ w = wordB (opField w) l ∧ i = .btnEdge l now := by
  rw [decodeB] at h
  split at h
  next hreserved =>
    cases h
    refine ⟨_, levelWf_ofPort _, ?_, rfl⟩
    rw [wordB, normLevel_ofPort]
    revert w; decide
  next => cases h

/-! The operation table (R46), and the decoder as its inverse. -/

/-- The operation table (R46, R55): the event words that, presented in mode `m` with the side-band operands `side`, stand
for an instruction. -/
inductive EventWordOf (m : Mode) (side : SideBand) : BitVec 8 → Instr → Prop
  | init : EventWordOf m side (wordN 0x0) (.init side.init)
  | teardown : EventWordOf m side (wordN 0x1) .teardown
  | readDir : EventWordOf m side (wordN 0x2) .readDir
  | readBtn : EventWordOf m side (wordN 0x3) (.readBtn side.now)
  | edge (k : EdgeKind) {a b : Int} (h : levelsWf a b = true) :
      EventWordOf m side (wordE k.opCode a b) (edgeInstr k m a b)
  | btnEdge {l : Int} (h : levelWf l = true) : EventWordOf m side (wordB 0x8 l) (.btnEdge l side.now)
  | btnTick : EventWordOf m side (wordN 0x9) (.btnTick side.now)

/-- The operations of R46 with format N: INIT, TEARDOWN, READ_DIR, READ_BTN and BTN_TICK. -/
theorem decodeWord_of_formatN {w : BitVec 8} (h : (opField w).toNat ≤ 3 ∨ (opField w).toNat = 9) (m : Mode)
    (side : SideBand) :
    ∃ i, EventWordOf m side (wordN (opField w)) i ∧ decodeWord m w side = decodeN w i := by
  have codes : ∀ op : BitVec 4, op.toNat ≤ 3 ∨ op.toNat = 9 → op = 0 ∨ op = 1 ∨ op = 2 ∨ op = 3 ∨ op = 9 := by decide
  rw [decodeWord]
  obtain hop | hop | hop | hop | hop := codes _ h <;> rw [hop]
  · exact ⟨_, .init, rfl⟩
  · exact ⟨_, .teardown, rfl⟩
  · exact ⟨_, .readDir, rfl⟩
  · exact ⟨_, .readBtn, rfl⟩
  · exact ⟨_, .btnTick, rfl⟩

/-- The code of an edge operation selects format E and its kind (R46). -/
theorem decodeWord_of_opCode {w : BitVec 8} {k : EdgeKind} (h : opField w = k.opCode) (m : Mode) (side : SideBand) :
    decodeWord m w side = decodeE m k w := by
  rw [decodeWord, h]
  cases k <;> rfl

/-- The operations of R46 with format E: the four edge operations. -/
theorem decodeWord_of_formatE {w : BitVec 8} (hlo : 4 ≤ (opField w).toNat) (hhi : (opField w).toNat ≤ 7) (m : Mode)
    (side : SideBand) : ∃ k, opField w = EdgeKind.opCode k ∧ decodeWord m w side = decodeE m k w := by
  have codes : ∀ op : BitVec 4, 4 ≤ op.toNat → op.toNat ≤ 7 → op = 4 ∨ op = 5 ∨ op = 6 ∨ op = 7 := by decide
  obtain hop | hop | hop | hop := codes _ hlo hhi
  · exact ⟨.aRise, hop, decodeWord_of_opCode hop m side⟩
  · exact ⟨.aFall, hop, decodeWord_of_opCode hop m side⟩
  · exact ⟨.bRise, hop, decodeWord_of_opCode hop m side⟩
  · exact ⟨.bFall, hop, decodeWord_of_opCode hop m side⟩

/-- The operation of R46 with format B: BTN_EDGE. -/
theorem decodeWord_of_formatB {w : BitVec 8} (h : opField w = 0x8) (m : Mode) (side : SideBand) :
    decodeWord m w side = decodeB w side.now := by
  rw [decodeWord, h]
  rfl

/-- A code of 10 or more is no operation (R53 (a)). -/
theorem decodeWord_of_reserved {w : BitVec 8} (h : 10 ≤ (opField w).toNat) (m : Mode) (side : SideBand) :
    decodeWord m w side = .rejected (.reservedOperation (opField w)) := by
  rw [decodeWord]
  split <;> try omega
  rfl

/-- The decoder reads every word of the operation table as its instruction (R45, R46). -/
theorem EventWordOf.decodeWord_eq {m : Mode} {side : SideBand} {w : BitVec 8} {i : Instr} (h : EventWordOf m side w i) :
    decodeWord m w side = .instr i := by
  cases h with
  | init => exact decodeN_wordN 0x0 _
  | teardown => exact decodeN_wordN 0x1 _
  | readDir => exact decodeN_wordN 0x2 _
  | readBtn => exact decodeN_wordN 0x3 _
  | edge k h => rw [decodeWord_of_opCode (opField_wordE ..), decodeE_wordE h]
  | btnEdge h => rw [decodeWord_of_formatB (opField_wordB ..), decodeB_wordB h]
  | btnTick => exact decodeN_wordN 0x9 _

/-- The decoder reads no word outside the operation table (R45, R53). -/
theorem EventWordOf.of_decodeWord {m : Mode} {side : SideBand} {w : BitVec 8} {i : Instr}
    (h : decodeWord m w side = .instr i) : EventWordOf m side w i := by
  obtain hop | ⟨hlo, hhi⟩ | hop | hop : ((opField w).toNat ≤ 3 ∨ (opField w).toNat = 9) ∨
    (4 ≤ (opField w).toNat ∧ (opField w).toNat ≤ 7) ∨ (opField w).toNat = 8 ∨ 10 ≤ (opField w).toNat := by omega
  · obtain ⟨j, hj, hd⟩ := decodeWord_of_formatN hop m side
    obtain ⟨hw, rfl⟩ := decodeN_eq_instr (hd.symm.trans h)
    rwa [hw]
  · obtain ⟨k, hk, hd⟩ := decodeWord_of_formatE hlo hhi m side
    obtain ⟨a, b, hab, hw, rfl⟩ := decodeE_eq_instr (hd.symm.trans h)
    rw [hw, hk]
    exact .edge k hab
  · have hcode : opField w = 0x8 := BitVec.eq_of_toNat_eq hop
    obtain ⟨l, hl, hw, rfl⟩ := decodeB_eq_instr ((decodeWord_of_formatB hcode m side).symm.trans h)
    rw [hw, hcode]
    exact .btnEdge hl
  · cases (decodeWord_of_reserved hop m side).symm.trans h

/-- A well-formed instruction's own event word stands for it, in the mode and with the side-band operands it is encoded
with (R45, R52, R55). -/
theorem eventWordOf_word {p : Params} {i : Instr} (h : i.wf p = true) (m : Mode) :
    EventWordOf (i.modeBits m) i.side i.word i := by
  obtain ⟨c, rfl⟩ | rfl | rfl | ⟨now, rfl⟩ | ⟨k, n, a, b, rfl⟩ | ⟨l, now, rfl⟩ | ⟨now, rfl⟩ := Machine.instr_cases i
  · exact .init (side := Instr.side (.init c))
  · exact .teardown
  · exact .readDir
  · exact .readBtn (side := Instr.side (.readBtn now))
  · rw [wf_edgeInstr] at h
    rw [modeBits_edgeInstr, word_edgeInstr]
    exact .edge k h
  · obtain ⟨hl, -⟩ := (Bool.and_eq_true ..).mp h
    exact .btnEdge (side := Instr.side (.btnEdge l now)) hl
  · exact .btnTick (side := Instr.side (.btnTick now))

/-- The encoder gives an instruction the key of the word that stands for it (R45, R55). -/
theorem EventWordOf.encode_key {m : Mode} {side : SideBand} {w : BitVec 8} {i : Instr} (h : EventWordOf m side w i) :
    (encode m i).1 = eventKey m w := by
  cases h with
  | edge k h => rw [encode, modeBits_edgeInstr, word_edgeInstr]
  | _ => rfl

/-- With side-band operands of their widths, the operation table holds well-formed instructions only (R52). -/
theorem EventWordOf.wf {p : Params} {m : Mode} {side : SideBand} {w : BitVec 8} {i : Instr} (h : EventWordOf m side w i)
    (hside : side.wf p = true) : i.wf p = true := by
  obtain ⟨hinit, hnow⟩ := (Bool.and_eq_true ..).mp hside
  cases h with
  | init => exact hinit
  | teardown => rfl
  | readDir => rfl
  | readBtn => exact hnow
  | edge k h => rwa [wf_edgeInstr]
  | btnEdge h => exact (Bool.and_eq_true ..).mpr ⟨h, hnow⟩
  | btnTick => exact hnow

/-- The key of a format E word, its parts written out (R45). -/
theorem eventKey_wordE_ofPort (m : Mode) (op : BitVec 4) (a b : Level) :
    eventKey m (wordE op (ofPort a) (ofPort b)) = m.code ++ op ++ 0b00#2 ++ a ++ b := by
  rw [eventKey, wordE, normLevel_ofPort, normLevel_ofPort]
  generalize m.code = c
  revert c op a b; decide

/-- The key of a format B word, its parts written out (R45). -/
theorem eventKey_wordB_ofPort (m : Mode) (op : BitVec 4) (l : Level) :
    eventKey m (wordB op (ofPort l)) = m.code ++ op ++ 0b000#3 ++ l := by
  rw [eventKey, wordB, normLevel_ofPort]
  generalize m.code = c
  revert c op l; decide

/-- The key of an event word in a mode decodes as the operation table says (R45, R46). -/
theorem EventWordOf.decode_key {m : Mode} {side : SideBand} {w : BitVec 8} {i : Instr} (h : EventWordOf m side w i) :
    decode (eventKey m w) side = .instr i := by
  rw [decode_eventKey, h.decodeWord_eq]

/-- The key of an edge operation decodes to the row of its mode (R46, R55). -/
theorem decode_edgeKey (m : Mode) (k : EdgeKind) (a b : Level) (side : SideBand) :
    decode (m.code ++ k.opCode ++ 0b00#2 ++ a ++ b) side = .instr (edgeInstr k m (ofPort a) (ofPort b)) := by
  rw [← eventKey_wordE_ofPort]
  exact (EventWordOf.edge k (levelsWf_ofPort a b)).decode_key

/-- The key of BTN_EDGE decodes to it in every mode (R46, R55). -/
theorem decode_btnEdgeKey (m : Mode) (l : Level) (side : SideBand) :
    decode (m.code ++ 0x8#4 ++ 0b000#3 ++ l) side = .instr (.btnEdge (ofPort l) side.now) := by
  rw [← eventKey_wordB_ofPort]
  exact (EventWordOf.btnEdge (levelWf_ofPort l)).decode_key

/-! Reserved argument bits (R53 (b)), format by format. -/

theorem decodeN_of_reserved {w : BitVec 8} (h : w &&& 0b1111 ≠ 0) (i : Instr) :
    decodeN w i = .rejected (.reservedArgument w) := by
  refine if_neg fun harg => h ?_
  revert w; decide

theorem decodeE_of_reserved {w : BitVec 8} (h : w &&& 0b1100 ≠ 0) (m : Mode) (k : EdgeKind) :
    decodeE m k w = .rejected (.reservedArgument w) := by
  refine if_neg fun harg => h ?_
  revert w; decide

theorem decodeB_of_reserved {w : BitVec 8} (h : w &&& 0b1110 ≠ 0) (now : Nat) :
    decodeB w now = .rejected (.reservedArgument w) := by
  refine if_neg fun harg => h ?_
  revert w; decide

/-! Direction codes (R50). -/

theorem Direction.toInt_code (d : Direction) : d.code.toInt = d.toInt := by
  cases d <;> rfl

/-- Sign extension keeps the direction's integer (R50). -/
theorem Direction.toInt_sext {n : Nat} (h : 2 ≤ n) (d : Direction) : (d.sext n).toInt = d.toInt := by
  rw [Direction.sext, BitVec.toInt_signExtend_of_le h, Direction.toInt_code]

end Sys2Proof

namespace Sys2Proof.Machine

/-- An event word the decoder rejects stops the step under the rejection's name (R45, R53). -/
theorem step_of_rejected_word {s : State} {w : BitVec 8} {side : SideBand} {rest : List Input} {r : Reject}
    (hin : s.inbox = .event w side :: rest) (h : decodeWord s.cfgMode w side = .rejected r) :
    step s = .refused (refusalOf r) :=
  step_of_rejected hin ((decode_eventKey ..).trans h)

/-! The nibbles of a table entry (R47). -/

/-- What a table read gives is an entry of a row of the table (R35). -/
theorem mem_of_romReadRow {rows : List (List (BitVec 8))} {r : BitVec 4} {c : BitVec 2} {e : BitVec 8}
    (h : romReadRow rows r c = some e) : ∃ row ∈ rows, e ∈ row := by
  obtain ⟨row, hrow, he⟩ := Option.bind_eq_some_iff.mp h
  exact ⟨row, List.mem_of_getElem? hrow, List.mem_of_getElem? he⟩

theorem entryNextRow_append (hi lo : BitVec 4) : entryNextRow (hi ++ lo) = lo := extract_append_lower hi lo

/-- The direction of an entry is read from its high nibble (R47). -/
theorem entryDirection_append (hi lo : BitVec 4) :
    entryDirection (hi ++ lo) = if hi = 0x1 then .pos else if hi = 0x2 then .neg else .zero := by
  rw [entryDirection, extract_append_upper]

/-- The flags that occur in the two transition tables (R32, R33, R47). -/
theorem flag_of_mem_rows : ∀ row ∈ hsRows ++ fsRows, ∀ e ∈ row,
    e.extractLsb' 4 4 = 0x0 ∨ e.extractLsb' 4 4 = 0x1 ∨ e.extractLsb' 4 4 = 0x2 := by
  simp [hsRows, fsRows]

/-! The statements. -/

/-- Settles O1: a well-formed instruction's own word stands for it in the operation table, which the decoder reads. -/
theorem decodeOfEncodeIsTheInstruction : Obligations.DecodeOfEncodeIsTheInstruction :=
  fun _ m _ h => (eventWordOf_word h m).decode_key

/-- Settles O2: the decoder reads only words of the operation table, whose words are the encoder's. -/
theorem acceptedKeyIsTheEncoding : Obligations.AcceptedKeyIsTheEncoding := by
  intro p k side i hside h
  have hword : EventWordOf (keyMode k) side (keyWord k) i := .of_decodeWord h
  exact ⟨hword.wf hside, hword.encode_key.trans (eventKey_keyMode_keyWord k)⟩

/-- Settles O4: the operation code gives the format, and the format its reserved argument bits. -/
theorem reservedEventWordsAreRefused : Obligations.ReservedEventWordsAreRefused := by
  intro s w side rest hin
  rw [← toNat_opField]
  refine ⟨fun hop => ?_, fun hop harg => ?_, fun hlo hhi harg => ?_, fun hop harg => ?_⟩
  · exact step_of_rejected_word hin (decodeWord_of_reserved hop ..)
  · obtain ⟨i, -, hi⟩ := decodeWord_of_formatN hop s.cfgMode side
    exact step_of_rejected_word hin (hi.trans (decodeN_of_reserved harg i))
  · obtain ⟨k, -, hk⟩ := decodeWord_of_formatE hlo hhi s.cfgMode side
    exact step_of_rejected_word hin (hk.trans (decodeE_of_reserved harg s.cfgMode k))
  · exact step_of_rejected_word hin ((decodeWord_of_formatB (BitVec.eq_of_toNat_eq hop) ..).trans
      (decodeB_of_reserved harg side.now))

/-- Settles O3: each key is the event key of a word of the operation table. -/
theorem operationWordsDecodeToTheirRows : Obligations.OperationWordsDecodeToTheirRows := by
  intro m side a b l
  have edge (n : Mode) (k : EdgeKind) := decode_edgeKey n k a b side
  exact ⟨EventWordOf.init.decode_key, EventWordOf.teardown.decode_key, EventWordOf.readDir.decode_key,
    EventWordOf.readBtn.decode_key,
    edge .singleEdge .aRise, edge .lookupTable .aRise, edge .halfStep .aRise, edge .fullStep .aRise,
    edge .singleEdge .aFall, edge .lookupTable .aFall, edge .halfStep .aFall, edge .fullStep .aFall,
    edge .singleEdge .bRise, edge .lookupTable .bRise, edge .halfStep .bRise, edge .fullStep .bRise,
    edge .singleEdge .bFall, edge .lookupTable .bFall, edge .halfStep .bFall, edge .fullStep .bFall,
    decode_btnEdgeKey m l side, EventWordOf.btnTick.decode_key⟩

/-- Settles O5: the codes are those of R50, sign extension keeps a two's complement value, and READ_DIR returns `dir`. -/
theorem directionCodesSignExtend : Obligations.DirectionCodesSignExtend := by
  refine ⟨rfl, rfl, rfl, rfl, rfl, rfl, fun d => ?_, fun n d h => Direction.toInt_sext h d, fun s hs => ?_⟩
  · cases d <;> decide
  · exact ⟨_, exec_readDir_of_active hs, rfl⟩

/-- Settles O8: the three input forms of `decodeInput`. -/
theorem inputsDecodeUnderTheCurrentMode : Obligations.InputsDecodeUnderTheCurrentMode :=
  fun _ _ _ _ _ _ _ _ => ⟨rfl, rfl, rfl⟩

/-- Settles O20: the nibbles are the halves of the entry, and every flag in the two tables is 0, 1 or 2. -/
theorem entryNibblesGiveDirectionAndRow : Obligations.EntryNibblesGiveDirectionAndRow := by
  refine ⟨fun hi lo => ⟨entryNextRow_append hi lo, fun h => ?_, fun h => ?_, fun h1 h2 => ?_⟩, fun r c e h => ?_⟩
  · rw [entryDirection_append, if_pos h]
  · rw [entryDirection_append, h]; rfl
  · rw [entryDirection_append, if_neg h1, if_neg h2]
  · obtain ⟨row, hrow, he⟩ : ∃ row ∈ hsRows ++ fsRows, e ∈ row := by
      obtain h | h := h
      · obtain ⟨row, hrow, he⟩ := mem_of_romReadRow h
        exact ⟨row, List.mem_append_left _ hrow, he⟩
      · obtain ⟨row, hrow, he⟩ := mem_of_romReadRow h
        exact ⟨row, List.mem_append_right _ hrow, he⟩
    exact flag_of_mem_rows row hrow e he

end Sys2Proof.Machine
end

section
/-! PROOFS. The statements of 40_edge_dispatch.md: an edge operation that is not accepted (R60), the four edge operations in
modes 1 to 3 (R69), that no handler operation stops the block (R64, R112, R114), and the frame of an edge row (R63, R98). -/

namespace Sys2Proof.Machine

/-! Acceptance (R60). -/

/-- A notification kind is not accepted when the block is not ACTIVE or the kind's bit of `ev_en` is 0 (R60). -/
theorem State.accepts_eq_false_iff (s : State) (k : HandlerKind) :
    s.accepts k = false ↔ ¬(s.phase = .active ∧ s.evEn.getLsbD k.bit = true) := by
  rw [← s.accepts_iff k, Bool.not_eq_true]

/-- Outside SingleEdge a session enables all four edge kinds, so each is accepted exactly while the block is ACTIVE (R12,
R60). -/
theorem EnablesMatch.accepts_edge_iff {s : State} (h : EnablesMatch s) (hm : s.cfgMode ≠ .singleEdge) (k : EdgeKind) :
    s.accepts (.edge k) = true ↔ s.phase = .active := by
  refine (s.accepts_iff _).trans (and_iff_left_of_imp fun hp => ?_)
  have hbit : (0b01111#5).getLsbD (HandlerKind.edge k).bit = true := by cases k <;> decide
  rw [h hp, if_neg hm, BitVec.getLsbD_or, hbit, Bool.true_or]

/-- The row of a mode depends on its edge kind only through acceptance (R62, R65 to R68). -/
theorem exec_edgeInstr_congr_kind {j k : EdgeKind} {s : State} (h : s.accepts (.edge j) = s.accepts (.edge k)) (m : Mode)
    (a b : Int) : exec (edgeInstr j m a b) s = exec (edgeInstr k m a b) s := by
  simp only [exec_edgeInstr, trigger, h]

/-! Handler operations complete (R64, R114). -/

/-- A decode with a row where `c` holds and none elsewhere succeeds where `c` holds (R35). -/
theorem eq_some_of_range {x : Option (Direction × BitVec 4)} {c : Prop} [Decidable c] {last : Nat}
    (hr : if c then ∃ d n, x = some (d, n) ∧ n.toNat ≤ last else x = none) (hc : c) : ∃ d n, x = some (d, n) := by
  rw [if_pos hc] at hr
  obtain ⟨d, n, hd, -⟩ := hr
  exact ⟨d, n, hd⟩

/-- Within a session the decode of the current mode succeeds: `tstate` is a row of its table (R14, R35). -/
theorem RowLegal.runMode_eq_some {s : State} (h : RowLegal s) (hp : s.phase = .active) (a b : Int) :
    ∃ d s', runMode s.cfgMode a b s = some (d, s') := by
  have hrow {m : Mode} (hm : s.cfgMode = m) : s.tstate.toNat ≤ lastRow m := hm ▸ h hp
  cases hm : s.cfgMode with
  | singleEdge => exact ⟨_, _, rfl⟩
  | lookupTable => exact ⟨_, _, rfl⟩
  | halfStep =>
    obtain ⟨d, n, hd⟩ := eq_some_of_range (decodeHs_range s.tstate (normLevel a) (normLevel b)) (hrow hm)
    exact ⟨d, s.setTstate n, by rw [runMode, runHs, hd, Option.map_some]⟩
  | fullStep =>
    obtain ⟨d, n, hd⟩ := eq_some_of_range (decodeFs_range s.tstate (normLevel a) (normLevel b)) (hrow hm)
    exact ⟨d, s.setTstate n, by rw [runMode, runFs, hd, Option.map_some]⟩

/-- Within a session every edge row of the current mode completes with no result and no calls, accepted or not. -/
theorem exec_edgeInstr_completes {s : State} (h : RowLegal s) (k : EdgeKind) (a b : Int) :
    ∃ u : State, exec (edgeInstr k s.cfgMode a b) s = .next (u.finish .none []) := by
  cases ha : s.accepts (.edge k) with
  | false => exact ⟨s, exec_edgeInstr_of_not_accepts ha⟩
  | true =>
    obtain ⟨d, s', hd⟩ := h.runMode_eq_some ((s.accepts_iff _).1 ha).1 a b
    exact ⟨s'.writeBack d, exec_edgeInstr_of_some ha hd⟩

/-- BTN_EDGE completes in every state with no result and no calls (R90). -/
theorem exec_btnEdge_completes (l : Int) (now : Nat) (s : State) :
    ∃ u : State, exec (.btnEdge l now) s = .next (u.finish .none []) := by
  simp only [exec, execBtnEdge]
  split
  · exact ⟨_, rfl⟩
  · exact ⟨_, rfl⟩

/-- BTN_TICK completes in every state with no result and no calls (R92). -/
theorem exec_btnTick_completes (now : Nat) (s : State) :
    ∃ u : State, exec (.btnTick now) s = .next (u.finish .none []) := by
  simp only [exec, execBtnTick]
  split
  · exact ⟨_, rfl⟩
  · exact ⟨_, rfl⟩

/-! What an edge row writes (R63). -/

/-- Only the LookupTable decode writes `abAB` (R63). -/
theorem runMode_abAB {m : Mode} {a b : Int} {s s' : State} {d : Direction} (hm : m ≠ .lookupTable)
    (h : runMode m a b s = some (d, s')) : s'.abAB = s.abAB := by
  obtain ⟨-, -, hs⟩ | ⟨hl, -, -⟩ | ⟨-, -, hs⟩ | ⟨-, -, hs⟩ := runMode_some h
  · rw [hs]
  · exact absurd hl hm
  · rw [hs, State.setTstate_abAB]
  · rw [hs, State.setTstate_abAB]

/-- Only the HalfStep and FullStep decodes write `tstate` (R63). -/
theorem runMode_tstate {m : Mode} {a b : Int} {s s' : State} {d : Direction} (hh : m ≠ .halfStep) (hf : m ≠ .fullStep)
    (h : runMode m a b s = some (d, s')) : s'.tstate = s.tstate := by
  obtain ⟨-, -, hs⟩ | ⟨-, -, hs⟩ | ⟨hm, -, -⟩ | ⟨hm, -, -⟩ := runMode_some h
  · rw [hs]
  · rw [hs, State.setAbAB_tstate]
  · exact absurd hm hh
  · exact absurd hm hf

/-- The write-back keeps `dir`, or sets it to the direction in `last_dir`, which is then not 0 (R63). -/
theorem State.writeBack_dir_kept_or_lastDir (s : State) (d : Direction) :
    (s.writeBack d).dir = s.dir ∨ ((s.writeBack d).dir = (s.writeBack d).lastDir ∧ (s.writeBack d).dir ≠ .zero) := by
  by_cases hd : d = .zero
  · exact .inl (by rw [State.writeBack_dir, if_pos hd])
  · have hdir : (s.writeBack d).dir = d := by rw [State.writeBack_dir, if_neg hd]
    exact .inr ⟨hdir, by rwa [hdir]⟩

/-! The statements. -/

/-- Settles O12: all sixteen edge rows are the same trigger, which a kind that is not accepted ends at once. -/
theorem edgeNotAcceptedIsIgnored : Obligations.EdgeNotAcceptedIsIgnored :=
  fun _ _ _ _ s h => exec_edgeInstr_of_not_accepts ((s.accepts_eq_false_iff _).2 h)

/-- Settles O21: outside SingleEdge all four kinds are accepted alike, and the rows of a mode share its decode. -/
theorem edgeKindsAreInterchangeable : Obligations.EdgeKindsAreInterchangeable := by
  intro j k a b s hs hm
  obtain ⟨-, -, hen, -⟩ := hs
  have hacc : s.accepts (.edge j) = s.accepts (.edge k) :=
    Bool.eq_iff_iff.2 ((hen.accepts_edge_iff hm j).trans (hen.accepts_edge_iff hm k).symm)
  exact exec_edgeInstr_congr_kind hacc s.cfgMode a b

/-- Settles O22: an accepted edge row finds a row of its table, and the button operations have no way to stop. -/
theorem handlerOperationsNeverStop : Obligations.HandlerOperationsNeverStop := by
  intro s hs
  obtain ⟨-, -, -, -, hrow, -⟩ := hs
  refine ⟨fun k a b => ?_, fun l now => ?_, fun now => ?_⟩
  · obtain ⟨u, hu⟩ := exec_edgeInstr_completes hrow k a b
    exact ⟨_, hu, rfl, rfl⟩
  · obtain ⟨u, hu⟩ := exec_btnEdge_completes l now s
    exact ⟨_, hu, rfl, rfl⟩
  · obtain ⟨u, hu⟩ := exec_btnTick_completes now s
    exact ⟨_, hu, rfl, rfl⟩

/-- Settles O23: an ignored row changes no register, and an accepted one what its decode and the write-back write. -/
theorem edgeFrame : Obligations.EdgeFrame := by
  intro k m a b s t h
  refine ⟨(exec_edgeInstr_frame h).1, ?_⟩
  obtain ⟨-, rfl⟩ | ⟨d, s', -, hd, rfl⟩ := exec_edgeInstr_next h
  · exact ⟨fun _ => rfl, fun _ _ => rfl, .inl rfl⟩
  · refine ⟨fun hm => ?_, fun hh hf => ?_, runMode_dir hd ▸ s'.writeBack_dir_kept_or_lastDir d⟩
    · rw [State.finish_abAB, State.writeBack_abAB, runMode_abAB hm hd]
    · rw [State.finish_tstate, State.writeBack_tstate, runMode_tstate hh hf hd]

end Sys2Proof.Machine
end

section
/-! PROOFS. The statements of 41_single_edge.md: the direction of a SingleEdge trigger (R70) and the edge kinds a SingleEdge
session enables (R73). -/

namespace Sys2Proof.Machine

/-! The direction of a trigger (R70). -/

theorem decodeSe_of_high {b : Int} (h : high b) : decodeSe (normLevel b) = .neg := by
  rw [normLevel_of_high h]; rfl

theorem decodeSe_of_not_high {b : Int} (h : ¬high b) : decodeSe (normLevel b) = .pos := by
  rw [normLevel_of_not_high h]; rfl

/-- The write-back of a direction other than 0 sets `last_dir` and `dir` to it (R63). -/
theorem State.writeBack_of_ne_zero (s : State) {d : Direction} (hd : d ≠ .zero) :
    s.writeBack d = { s with lastDir := d, dir := d } := by
  rw [State.writeBack, if_neg hd]

/-- An accepted SingleEdge row writes its direction to `last_dir` and `dir` and nothing else: SingleEdge has no decoder
register (R70, R72). -/
theorem exec_singleEdge_of_accepts {k : EdgeKind} {b : Int} {s : State} {d : Direction}
    (ha : s.accepts (.edge k) = true) (hd : decodeSe (normLevel b) = d) (hz : d ≠ .zero) (a : Int) :
    exec (edgeInstr k .singleEdge a b) s =
      .next { s with lastDir := d, dir := d, result := .none, calls := [] } := by
  have hrun : runMode .singleEdge a b s = some (d, s) := by rw [← hd]; rfl
  rw [exec_edgeInstr_of_some ha hrun, s.writeBack_of_ne_zero hz]; rfl

/-! The kinds a session enables (R73). -/

/-- A SingleEdge session enables A rising alone of the four edge kinds (R12, R73). -/
theorem EnablesMatch.edgeBits_of_singleEdge {s : State} (h : EnablesMatch s) (hp : s.phase = .active)
    (hm : s.cfgMode = .singleEdge) : s.evEn.extractLsb' 0 4 = 0b0001 := by
  rw [h hp, if_pos hm]
  split
  · decide
  · decide

/-- The bit of an edge kind is among the low four bits of a mask (R12). -/
theorem getLsbD_edgeBits (x : BitVec 5) (k : EdgeKind) :
    (x.extractLsb' 0 4).getLsbD (HandlerKind.edge k).bit = x.getLsbD (HandlerKind.edge k).bit := by
  have hk : (HandlerKind.edge k).bit < 4 := by cases k <;> decide
  rw [BitVec.getLsbD_extractLsb', Nat.zero_add, decide_eq_true hk, Bool.true_and]

/-- With `ev_en[3:0] = 0b0001` no kind but A rising is accepted (R60, R73). -/
theorem State.accepts_edge_eq_false {s : State} {k : EdgeKind} (h : s.evEn.extractLsb' 0 4 = 0b0001) (hk : k ≠ .aRise) :
    s.accepts (.edge k) = false := by
  have hbit : s.evEn.getLsbD (HandlerKind.edge k).bit = false := by
    rw [← getLsbD_edgeBits, h]
    cases k with
    | aRise => exact absurd rfl hk
    | aFall | bRise | bFall => rfl
  rw [State.accepts, hbit, Bool.and_false]

/-! The statements. -/

/-- Settles O14: the session invariant leaves A rising alone enabled, so the rows of the other kinds are ignored. -/
theorem singleEdgeIgnoresTheOtherKinds : Obligations.SingleEdgeIgnoresTheOtherKinds := by
  intro k a b s hs hp hm
  obtain ⟨-, -, hen, -⟩ := hs
  have hbits := hen.edgeBits_of_singleEdge hp hm
  exact ⟨hbits, fun hk => exec_edgeInstr_of_not_accepts (State.accepts_edge_eq_false hbits hk)⟩

/-- Settles O13: the key is that of A rising in SingleEdge, and an accepted row writes back the direction B gives. -/
theorem singleEdgeTriggerEmitsByB : Obligations.SingleEdgeTriggerEmitsByB := by
  refine ⟨fun side a b => decode_edgeKey .singleEdge .aRise a b side, fun k a b s hp _ hen => ?_⟩
  have ha : s.accepts (.edge k) = true := (s.accepts_iff _).2 ⟨hp, hen⟩
  exact ⟨fun hb => exec_singleEdge_of_accepts ha (decodeSe_of_high hb) (by decide) a,
    fun hb => exec_singleEdge_of_accepts ha (decodeSe_of_not_high hb) (by decide) a⟩

end Sys2Proof.Machine
end

section
/-! PROOFS. The statements of 42_lookup_table.md: the index, the entry and the write-back of a LookupTable trigger (R75), and
the sense of rotation in the table (R78). -/

namespace Sys2Proof.Machine

/-! The index (R48, R75). -/

/-- A normalised reading as a number: 1 when it counts as high, else 0 (R8). -/
theorem toNat_normLevel (v : Int) : (normLevel v).toNat = if high v then 1 else 0 := by
  split
  next h => rw [normLevel_of_high h]; rfl
  next h => rw [normLevel_of_not_high h]; rfl

/-- The index as a number: the low two bits of `abAB`, then A, then B (R48). -/
theorem toNat_lookupIndex (abAB : BitVec 4) (a b : Level) :
    (lookupIndex abAB a b).toNat = abAB.toNat % 4 * 4 + a.toNat * 2 + b.toNat := by
  revert abAB a b; decide

/-- The index drops the older half of the history (R48, R77). -/
theorem lookupIndex_append (h : BitVec 2) (pa pb a b : Level) :
    lookupIndex (h ++ pa ++ pb) a b = pa ++ pb ++ a ++ b := by
  revert h pa pb a b; decide

/-! The table (R31). -/

/-- Every entry of `LUT` is the direction that the literal list gives at its index (R31). -/
theorem lutLiteral_getElem? (i : BitVec 4) : lutLiteral[i.toNat]? = some (romReadLut i).toInt := by
  have hlit : lutLiteral = lutEntries.map Direction.toInt := by decide
  have hi : i.toNat < lutEntries.length := i.isLt
  rw [hlit, List.getElem?_map, romReadLut, List.getD_eq_getElem _ _ hi, List.getElem?_eq_getElem hi, Option.map_some]

/-- The sense of rotation in `LUT`: a previous reading, then a current one (R76, R78). -/
theorem romReadLut_cycle (pa pb a b : Level) :
    romReadLut (pa ++ pb ++ a ++ b) =
      if cyclePosition a b = (cyclePosition pa pb + 1) % 4 then .pos
      else if cyclePosition pa pb = (cyclePosition a b + 1) % 4 then .neg
      else .zero := by
  revert pa pb a b; decide

/-! The trigger (R75). -/

/-- An accepted LookupTable row writes the index to `abAB`, writes back the entry of `LUT` there, and changes no other
register (R63, R75). -/
theorem exec_lookupTable_of_accepts {k : EdgeKind} {a b : Int} {s : State} {idx : BitVec 4}
    (ha : s.accepts (.edge k) = true) (hidx : lookupIndex s.abAB (normLevel a) (normLevel b) = idx) :
    exec (edgeInstr k .lookupTable a b) s =
      .next { s with
        abAB := idx, lastDir := romReadLut idx, dir := if romReadLut idx = .zero then s.dir else romReadLut idx,
        result := .none, calls := [] } := by
  have hrun : runMode .lookupTable a b s = some (romReadLut idx, s.setAbAB idx) := by rw [← hidx]; rfl
  rw [exec_edgeInstr_of_some ha hrun]; rfl

/-! The statements. -/

/-- Settles O15: the four keys are those of the edge rows, and an accepted row looks its index up in the literal list. -/
theorem lookupTableTriggerFollowsTheLiteral : Obligations.LookupTableTriggerFollowsTheLiteral := by
  refine ⟨fun side a b => ?_, fun k a b s hp _ hen => ?_⟩
  · exact ⟨decode_edgeKey .lookupTable .aRise a b side, decode_edgeKey .lookupTable .aFall a b side,
      decode_edgeKey .lookupTable .bRise a b side, decode_edgeKey .lookupTable .bFall a b side⟩
  · have ha : s.accepts (.edge k) = true := (s.accepts_iff _).2 ⟨hp, hen⟩
    generalize hidx : lookupIndex s.abAB (normLevel a) (normLevel b) = idx
    refine ⟨idx.toNat, romReadLut idx, ?_, lutLiteral_getElem? idx, ?_⟩
    · rw [← hidx, toNat_lookupIndex, toNat_normLevel, toNat_normLevel, ite_mul, one_mul, zero_mul]
    · rw [BitVec.ofNat_toNat, BitVec.setWidth_eq]
      exact exec_lookupTable_of_accepts ha hidx

/-- Settles O16: the decode reads the table at the two readings, whose entries follow the cycle. -/
theorem lookupTableFollowsTheCycle : Obligations.LookupTableFollowsTheCycle := by
  intro h pa pb a b
  rw [decodeLut, lookupIndex_append]
  exact romReadLut_cycle pa pb a b

end Sys2Proof.Machine
end

section
/-! PROOFS. The statements of 43_half_step.md: the transition function of a HalfStep trigger (R81) and how many triggers an
emission takes (R83). -/

namespace Sys2Proof.Machine

/-! A transition table and its cells (R32, R47). -/

/-- The cell of a transition table that an entry stands for: its next row and its direction (R47). -/
def entryCell (e : BitVec 8) : Nat × Int :=
  ((entryNextRow e).toNat, (entryDirection e).toInt)

/-- The column of the readings as a number: A, then B (R49). -/
theorem toNat_columnIndex (a b : Int) :
    (columnIndex (normLevel a) (normLevel b)).toNat = (if high a then 2 else 0) + (if high b then 1 else 0) := by
  have hcol : ∀ x y : Level, (columnIndex x y).toNat = x.toNat * 2 + y.toNat := by decide
  rw [hcol, toNat_normLevel, toNat_normLevel, ite_mul, one_mul, zero_mul]

/-- In a table written as cells, the readings select the cell of the entry that they select in the table (R32, R49). -/
theorem cellAt_map_entryCell (rows : List (List (BitVec 8))) (r : BitVec 4) (a b : Int) :
    cellAt (rows.map (List.map entryCell)) r.toNat a b =
      (romReadRow rows r (columnIndex (normLevel a) (normLevel b))).map entryCell := by
  rw [cellAt, romReadRow, toNat_columnIndex, List.getElem?_map, Option.bind_map, Option.map_bind]
  refine congrArg _ (funext fun row => ?_)
  simp only [Function.comp_apply, List.getElem?_map]

/-- The tabulated transition function is `HS`, entry by entry (R32, R81). -/
theorem hsCells_eq : hsCells = hsRows.map (List.map entryCell) := by decide

/-- The entries of `HS` that emit (R81). -/
theorem emitting_of_romReadHs {r : BitVec 4} {c : BitVec 2} {e : BitVec 8} (he : romReadHs r c = some e)
    (hd : entryDirection e ≠ .zero) : (r = 2 ∧ c = 0) ∨ (r = 4 ∧ c = 3) ∨ (r = 1 ∧ c = 0) ∨ (r = 5 ∧ c = 3) := by
  have key : ∀ (r : BitVec 4) (c : BitVec 2), ((romReadHs r c).all fun e => entryDirection e ≠ .zero →
      (r = 2 ∧ c = 0) ∨ (r = 4 ∧ c = 3) ∨ (r = 1 ∧ c = 0) ∨ (r = 5 ∧ c = 3)) = true := by decide
  exact of_decide_eq_true ((Option.all_eq_true _ _).1 (key r c) e he) hd

/-! The trigger (R80). -/

/-- The HalfStep decode reads one entry of `HS`, and takes from it the direction and the new row (R80). -/
theorem runMode_halfStep (a b : Int) (s : State) :
    runMode .halfStep a b s = (romReadHs s.tstate (columnIndex (normLevel a) (normLevel b))).map fun e =>
      (entryDirection e, s.setTstate (entryNextRow e)) := by
  have hmask : s.tstate &&& 0x0F = s.tstate := BitVec.and_allOnes
  rw [runMode, runHs, decodeHs, hmask, Option.map_map]
  rfl

/-- An accepted edge row whose decode gives a direction and a row writes the row to `tstate`, writes back the direction, and
changes no other register (R63). -/
theorem exec_edgeInstr_of_setTstate {k : EdgeKind} {m : Mode} {a b : Int} {s : State} {d : Direction} {n : BitVec 4}
    (ha : s.accepts (.edge k) = true) (hd : runMode m a b s = some (d, s.setTstate n)) :
    exec (edgeInstr k m a b) s =
      .next { s with
        tstate := n, lastDir := d, dir := if d = .zero then s.dir else d, result := .none, calls := [] } := by
  rw [exec_edgeInstr_of_some ha hd]
  rfl

/-! How many triggers an emission takes (R83, R88). -/

/-- `credit` counts triggers already spent on the next emission: a trigger adds one at most, and an emission takes `cost`. -/
def EmissionsCost (m : Mode) (cost : Nat) (credit : BitVec 4 → Nat) : Prop :=
  ∀ (a b : Int) (s s' : State) (d : Direction), runMode m a b s = some (d, s') →
    (if d = .zero then 0 else cost) + credit s'.tstate ≤ credit s.tstate + 1

/-- A run that begins with a refused operation emits nothing. -/
theorem emissions_of_refused {i : Instr} {s : State} {r : Refusal} (h : exec i s = .refused r) (is : List Instr) :
    emissions (i :: is) s = [] := by
  rw [emissions, h]

/-- An edge row that completes adds at most one trigger to the credit and pays for what it emits, accepted or not. -/
theorem EmissionsCost.exec_edgeInstr {m : Mode} {cost : Nat} {credit : BitVec 4 → Nat} (hc : EmissionsCost m cost credit)
    {k : EdgeKind} {a b : Int} {s t : State} (h : exec (edgeInstr k m a b) s = .next t) :
    cost * (emissionOf (edgeInstr k m a b) s t).toList.length + credit t.tstate ≤ credit s.tstate + 1 := by
  obtain ⟨ha, rfl⟩ | ⟨d, s', ha, hd, rfl⟩ := exec_edgeInstr_next h
  · rw [emissionOf_edgeInstr_of_not_accepts ha, State.finish_tstate]
    simp
  · have hpaid := hc a b s s' d hd
    rw [emissionOf_edgeInstr_of_accepts ha, State.finish_lastDir, State.writeBack_lastDir, State.finish_tstate,
      State.writeBack_tstate]
    split at hpaid
    next hz => rwa [if_pos hz]
    next hz => rwa [if_neg hz, Option.toList_some, List.length_singleton, mul_one]

/-- Over any readings and from any state, the emissions cost no more than the triggers and the credit at the start. -/
theorem EmissionsCost.length_emissions_le {m : Mode} {cost : Nat} {credit : BitVec 4 → Nat}
    (hc : EmissionsCost m cost credit) (rs : List Reading) (s : State) :
    cost * (emissions (triggers m rs) s).length ≤ rs.length + credit s.tstate := by
  induction rs generalizing s with
  | nil => exact Nat.zero_le _
  | cons r rs ih =>
    rw [triggers, List.map_cons, ← triggers, List.length_cons]
    cases hexec : exec (edgeInstr r.kind m (ofPort r.a) (ofPort r.b)) s with
    | next t =>
      have hfirst := hc.exec_edgeInstr hexec
      have hrest := ih t
      rw [emissions_cons hexec, List.length_append, Nat.mul_add]
      omega
    | fault f => cases f
    | refused x =>
      rw [emissions_of_refused hexec]
      exact Nat.zero_le _

/-- The trigger that led away from a rest row of `HS`: none in the rest rows 0 and 3, one in the other rows (R83). -/
def hsCredit (row : BitVec 4) : Nat :=
  if row = 0 ∨ row = 3 then 0 else 1

theorem hsCredit_le_one (row : BitVec 4) : hsCredit row ≤ 1 := by
  rw [hsCredit]
  split
  · exact Nat.zero_le _
  · exact Nat.le_refl _

/-- HalfStep emits only from a row that is no rest row, and then lands in a rest row (R82, R83). -/
theorem emissionsCost_halfStep : EmissionsCost .halfStep 2 hsCredit := by
  have key : ∀ (r : BitVec 4) (c : BitVec 2), ((romReadHs r c).all fun e =>
      (if entryDirection e = .zero then 0 else 2) + hsCredit (entryNextRow e) ≤ hsCredit r + 1) = true := by decide
  intro a b s s' d h
  rw [runMode_halfStep, Option.map_eq_some_iff] at h
  obtain ⟨e, he, heq⟩ := h
  cases heq
  exact of_decide_eq_true ((Option.all_eq_true _ _).1 (key _ _) e he)

/-! The statements. -/

/-- Settles O17: the decode reads the entry that the cell at the readings stands for, and writes back its two parts. -/
theorem halfStepTriggerFollowsTheTable : Obligations.HalfStepTriggerFollowsTheTable := by
  refine ⟨by decide, fun r c e he hd => emitting_of_romReadHs he hd, fun k a b s hp _ hen hrow => ?_⟩
  have ha : s.accepts (.edge k) = true := (s.accepts_iff _).2 ⟨hp, hen⟩
  obtain ⟨e, he, -⟩ := romReadHs_of_le hrow (columnIndex (normLevel a) (normLevel b))
  refine ⟨(entryNextRow e).toNat, entryDirection e, ?_, ?_⟩
  · rw [hsCells_eq, cellAt_map_entryCell, ← romReadHs, he, Option.map_some, entryCell]
  · rw [BitVec.ofNat_toNat, BitVec.setWidth_eq]
    exact exec_edgeInstr_of_setTstate ha (by rw [runMode_halfStep, he, Option.map_some])

/-- Settles O26: an emission costs two triggers, of which at most one was spent before the run, and none in row 0. -/
theorem halfStepNeedsTwoTriggersPerEmission : Obligations.HalfStepNeedsTwoTriggersPerEmission := by
  intro rs s _ _ _
  have hle := emissionsCost_halfStep.length_emissions_le rs s
  refine ⟨hle.trans (Nat.add_le_add_left (hsCredit_le_one _) _), fun hrow => ?_⟩
  rw [hrow] at hle
  exact hle

end Sys2Proof.Machine
end

section
/-! PROOFS. The statements of 44_full_step.md: the transition function of a FullStep trigger (R86) and how many triggers an
emission takes (R88). -/

namespace Sys2Proof.Machine

/-! The table (R33, R47). -/

/-- The tabulated transition function is `FS`, entry by entry (R33, R86). -/
theorem fsCells_eq : fsCells = fsRows.map (List.map entryCell) := by decide

/-- The entries of `FS` that emit (R86). -/
theorem emitting_of_romReadFs {r : BitVec 4} {c : BitVec 2} {e : BitVec 8} (he : romReadFs r c = some e)
    (hd : entryDirection e ≠ .zero) : (r = 1 ∧ c = 3) ∨ (r = 5 ∧ c = 3) := by
  have key : ∀ (r : BitVec 4) (c : BitVec 2), ((romReadFs r c).all fun e => entryDirection e ≠ .zero →
      (r = 1 ∧ c = 3) ∨ (r = 5 ∧ c = 3)) = true := by decide
  exact of_decide_eq_true ((Option.all_eq_true _ _).1 (key r c) e he) hd

/-! The trigger (R85). -/

/-- The FullStep decode reads one entry of `FS`, and takes from it the direction and the new row (R85). -/
theorem runMode_fullStep (a b : Int) (s : State) :
    runMode .fullStep a b s = (romReadFs s.tstate (columnIndex (normLevel a) (normLevel b))).map fun e =>
      (entryDirection e, s.setTstate (entryNextRow e)) := by
  have hmask : s.tstate &&& 0x0F = s.tstate := BitVec.and_allOnes
  rw [runMode, runFs, decodeFs, hmask, Option.map_map]
  rfl

/-! How many triggers an emission takes (R88). -/

/-- The triggers that lead to a row of `FS` from the rest row 0 on the shortest way: by rows 2, 3, 1 on the +1 path and by
rows 4, 6, 5 on the -1 path (R88). A number that is no row of `FS` has no trigger, and any value will do for it. -/
def fsCredit (row : BitVec 4) : Nat :=
  if row = 0 then 0
  else if row = 2 ∨ row = 4 then 1
  else if row = 3 ∨ row = 6 then 2
  else 3

theorem fsCredit_le_three (row : BitVec 4) : fsCredit row ≤ 3 := by
  revert row; decide

/-- No trigger goes more than one row along a path, and FullStep emits only from the last row of a path, landing in row 0
(R87, R88). -/
theorem emissionsCost_fullStep : EmissionsCost .fullStep 4 fsCredit := by
  have key : ∀ (r : BitVec 4) (c : BitVec 2), ((romReadFs r c).all fun e =>
      (if entryDirection e = .zero then 0 else 4) + fsCredit (entryNextRow e) ≤ fsCredit r + 1) = true := by decide
  intro a b s s' d h
  rw [runMode_fullStep, Option.map_eq_some_iff] at h
  obtain ⟨e, he, heq⟩ := h
  cases heq
  exact of_decide_eq_true ((Option.all_eq_true _ _).1 (key _ _) e he)

/-! The statements. -/

/-- Settles O18: the decode reads the entry that the cell at the readings stands for, and writes back its two parts. -/
theorem fullStepTriggerFollowsTheTable : Obligations.FullStepTriggerFollowsTheTable := by
  refine ⟨by decide, fun r c e he hd => emitting_of_romReadFs he hd, fun k a b s hp _ hen hrow => ?_⟩
  have ha : s.accepts (.edge k) = true := (s.accepts_iff _).2 ⟨hp, hen⟩
  obtain ⟨e, he, -⟩ := romReadFs_of_le hrow (columnIndex (normLevel a) (normLevel b))
  refine ⟨(entryNextRow e).toNat, entryDirection e, ?_, ?_⟩
  · rw [fsCells_eq, cellAt_map_entryCell, ← romReadFs, he, Option.map_some, entryCell]
  · rw [BitVec.ofNat_toNat, BitVec.setWidth_eq]
    exact exec_edgeInstr_of_setTstate ha (by rw [runMode_fullStep, he, Option.map_some])

/-- Settles O25: an emission costs four triggers, of which at most three were spent before the run, and none in row 0. -/
theorem fullStepNeedsFourTriggersPerEmission : Obligations.FullStepNeedsFourTriggersPerEmission := by
  intro rs s _ _ _
  have hle := emissionsCost_fullStep.length_emissions_le rs s
  refine ⟨hle.trans (Nat.add_le_add_left (fsCredit_le_three _) _), fun hrow => ?_⟩
  rw [hrow] at hle
  exact hle

end Sys2Proof.Machine
end

section
/-! PROOFS. The statements of 45_button_debouncer.md: BTN_EDGE and BTN_TICK (R90 to R92), the session without a button (R94),
the ideal output and the bounce it discards (R96, R97, R99), and that the decoder and the debouncer read nothing of each
other (R98 (d), R124). -/

namespace Sys2Proof

/-! Elapsed time (R57 (d)). -/

/-- The elapsed time reads T_W bits of the time it is counted from (R57 (d)). -/
@[simp] theorem Params.elapsed_from_time (p : Params) (now t : Nat) : p.elapsed now (p.time t) = p.elapsed now t := by
  simp only [Params.elapsed, Params.time, Int.natCast_mod, Int.sub_emod_emod]

/-- Less than 2^T_W ticks after a time, the elapsed time is the true one (R99). -/
theorem Params.elapsed_eq_sub {p : Params} {now t : Nat} (hle : t ≤ now) (hlt : now - t < 2 ^ p.tW) :
    p.elapsed now t = now - t := by
  rw [Params.elapsed, ← Nat.cast_sub hle, ← Int.natCast_mod, Nat.mod_eq_of_lt hlt, Int.toNat_natCast]

end Sys2Proof

namespace Sys2Proof.Machine

/-! The button operations, accepted and not (R90, R92, R105). -/

theorem exec_btnEdge_of_accepts {s : State} (h : s.accepts .button = true) (l : Int) (now : Nat) :
    exec (.btnEdge l now) s = .next (((s.settle now).recordButton (normLevel l) now).finish .none []) :=
  if_pos h

theorem exec_btnEdge_of_not_accepts {s : State} (h : s.accepts .button = false) (l : Int) (now : Nat) :
    exec (.btnEdge l now) s = .next (s.finish .none []) :=
  if_neg (by simp [h])

theorem exec_btnTick_of_button {s : State} (hp : s.phase = .active) (hb : s.cfgBtnPin ≠ s.params.pinNone) (now : Nat) :
    exec (.btnTick now) s = .next ((s.settle now).finish .none []) :=
  if_pos ⟨hp, s.hasButton_iff.2 hb⟩

theorem exec_btnTick_of_no_button {s : State} (h : ¬(s.phase = .active ∧ s.cfgBtnPin ≠ s.params.pinNone)) (now : Nat) :
    exec (.btnTick now) s = .next (s.finish .none []) :=
  if_neg (by rwa [s.hasButton_iff])

theorem exec_readBtn_of_button {s : State} (hp : s.phase = .active) (hb : s.cfgBtnPin ≠ s.params.pinNone) (now : Nat) :
    exec (.readBtn now) s = .next (s.finish (.level (s.debounced now)) []) := by
  simp only [exec, execReadBtn, hp, s.hasButton_iff.2 hb, if_pos]

theorem exec_readBtn_of_no_button {s : State} (hp : s.phase = .active) (hb : s.cfgBtnPin = s.params.pinNone) (now : Nat) :
    exec (.readBtn now) s = .next (s.finish (.level 0) []) := by
  have hno : ¬s.hasButton = true := fun h => s.hasButton_iff.1 h hb
  simp only [exec, execReadBtn, hp, if_pos, if_neg hno]

/-! `Settle` and `Debounced` (R91, R93). -/

/-- `Debounced` is the recorded level from the delay after its edge on, and `btn_out` before: when the two agree it makes no
difference which is taken (R93). -/
theorem State.debounced_eq (s : State) (now : Nat) :
    s.debounced now = if s.cfgDelay ≤ s.params.elapsed now s.btnT then s.btnLevel else s.btnOut := by
  by_cases heq : s.btnLevel = s.btnOut <;> simp [State.debounced, State.settles, heq]

theorem State.debounced_of_le {s : State} {now : Nat} (h : s.cfgDelay ≤ s.params.elapsed now s.btnT) :
    s.debounced now = s.btnLevel := by
  rw [State.debounced_eq, if_pos h]

theorem State.debounced_of_lt {s : State} {now : Nat} (h : s.params.elapsed now s.btnT < s.cfgDelay) :
    s.debounced now = s.btnOut := by
  rw [State.debounced_eq, if_neg (by omega)]

/-- `Settle` writes what `Debounced` returns to `btn_out` (R91, R93). -/
theorem State.settle_eq (s : State) (now : Nat) : s.settle now = { s with btnOut := s.debounced now } := rfl

/-- Settling at one time leaves what `Debounced` returns at a later one: it only accepts a level early that stands long enough
then too (R92). -/
theorem State.debounced_settle {s : State} {now later : Nat}
    (h : s.params.elapsed now s.btnT ≤ s.params.elapsed later s.btnT) :
    (s.settle now).debounced later = s.debounced later := by
  by_cases hl : s.cfgDelay ≤ s.params.elapsed later s.btnT
  · rw [State.debounced_of_le hl]
    exact State.debounced_of_le hl
  · have hlt := Nat.lt_of_not_le hl
    calc (s.settle now).debounced later
        = (s.settle now).btnOut := State.debounced_of_lt hlt
      _ = s.debounced now := rfl
      _ = s.btnOut := State.debounced_of_lt (h.trans_lt hlt)
      _ = s.debounced later := (State.debounced_of_lt hlt).symm

/-! No button attached (R94). -/

/-- What INIT leaves with no button attached: the button's handler disabled and its registers 0 (R94). -/
structure ButtonDetached (s : State) : Prop where
  active : s.phase = .active
  disabled : s.evEn.getLsbD 4 = false
  detached : s.cfgBtnPin = s.params.pinNone
  level : s.btnLevel = 0
  time : s.btnT = 0
  out : s.btnOut = 0

/-- Without a button no mode asks for the button's handler (R12, R100). -/
theorem getLsbD_wantedHandlers_no_button (m : Mode) : (wantedHandlers m false).getLsbD 4 = false := by
  cases m <;> rfl

/-- A successful INIT with the sentinel as button pin leaves the button detached (R94, R100). -/
theorem ButtonDetached.of_exec_init {c : InitOperands} {s t : State} (hc : s.params.pin c.btnPin = s.params.pinNone)
    (h : exec (.init c) s = .next t) (hok : t.result = .status .ok) : ButtonDetached t := by
  obtain ⟨-, rfl⟩ := exec_init_next h
  obtain hi | ⟨cs, hi⟩ | ⟨m, cs, -, -, -, hi⟩ := initSession_cases (c.atWidths s.params) s
  · rw [hi] at hok; cases hok
  · rw [hi] at hok; cases hok
  · have hdet : (c.atWidths s.params).btnPin = s.params.pinNone := hc
    rw [hi, hdet, bne_self_eq_false]
    exact ⟨rfl, getLsbD_wantedHandlers_no_button m, hdet, rfl, rfl, rfl⟩

/-- Nothing about the button reads the result and the calls. -/
theorem ButtonDetached.finish {s : State} (h : ButtonDetached s) (r : Result) (cs : List SourceCall) :
    ButtonDetached (s.finish r cs) :=
  ⟨h.active, h.disabled, h.detached, h.level, h.time, h.out⟩

theorem ButtonDetached.exec_btnEdge {s : State} (h : ButtonDetached s) (l : Int) (now : Nat) :
    exec (.btnEdge l now) s = .next (s.finish .none []) :=
  exec_btnEdge_of_not_accepts
    ((s.accepts_eq_false_iff .button).2 fun ⟨_, hen⟩ => Bool.false_ne_true (h.disabled.symm.trans hen)) l now

theorem ButtonDetached.exec_btnTick {s : State} (h : ButtonDetached s) (now : Nat) :
    exec (.btnTick now) s = .next (s.finish .none []) :=
  exec_btnTick_of_no_button (fun ⟨_, hb⟩ => hb h.detached) now

/-- Every operation but TEARDOWN leaves the button detached (R94). -/
theorem ButtonDetached.of_exec {i : Instr} {s t : State} (hs : ButtonDetached s) (hi : i ≠ .teardown)
    (h : exec i s = .next t) : ButtonDetached t := by
  obtain ⟨c, rfl⟩ | rfl | rfl | ⟨now, rfl⟩ | ⟨k, m, a, b, rfl⟩ | ⟨l, now, rfl⟩ | ⟨now, rfl⟩ := instr_cases i
  · cases hs.active.symm.trans (exec_init_next h).1
  · exact absurd rfl hi
  · obtain ⟨-, rfl⟩ := exec_readDir_next h
    exact ⟨hs.active, hs.disabled, hs.detached, hs.level, hs.time, hs.out⟩
  · obtain ⟨-, rfl⟩ := exec_readBtn_next h
    exact hs.finish ..
  · rw [(exec_edgeInstr_frame h).1]
    exact ⟨hs.active, hs.disabled, hs.detached, hs.level, hs.time, hs.out⟩
  · rw [hs.exec_btnEdge] at h
    cases h
    exact hs.finish ..
  · rw [hs.exec_btnTick] at h
    cases h
    exact hs.finish ..

/-- Every run without TEARDOWN leaves the button detached (R94). -/
theorem ButtonDetached.of_execAll {is : List Instr} {s t : State} (hs : ButtonDetached s) (his : ∀ i ∈ is, i ≠ .teardown)
    (h : execAll is s = some t) : ButtonDetached t := by
  induction is generalizing s with
  | nil => cases h; exact hs
  | cons i is ih =>
    rw [List.forall_mem_cons] at his
    obtain ⟨u, hu, hrest⟩ := execAll_cons_eq_some h
    exact ih (hs.of_exec his.1 hu) his.2 hrest

/-! Bounce (R97). -/

/-- A run whose first operation completes. -/
theorem execAll_cons_of_next {i : Instr} {s u : State} (h : exec i s = .next u) (is : List Instr) :
    execAll (i :: is) s = execAll is u := by
  rw [execAll, h]

/-- An edge less than the delay after the recorded one accepts nothing and is recorded in its place (R90, R97). -/
theorem exec_btnEdge_of_lt {s : State} {now : Nat} (ha : s.accepts .button = true)
    (hlt : s.params.elapsed now s.btnT < s.cfgDelay) (l : Int) :
    exec (.btnEdge l now) s =
      .next { s with btnLevel := normLevel l, btnT := s.params.time now, result := .none, calls := [] } := by
  rw [exec_btnEdge_of_accepts ha, State.settle_eq, State.debounced_of_lt hlt]
  rfl

/-- A tick from the delay after the recorded edge on makes `btn_out` the recorded level (R92, R97). -/
theorem exec_btnTick_of_le {s : State} {now : Nat} (hp : s.phase = .active) (hb : s.cfgBtnPin ≠ s.params.pinNone)
    (hle : s.cfgDelay ≤ s.params.elapsed now s.btnT) :
    exec (.btnTick now) s = .next { s with btnOut := s.btnLevel, result := .none, calls := [] } := by
  rw [exec_btnTick_of_button hp hb, State.settle_eq, State.debounced_of_le hle]
  rfl

/-- Whether edges are rapid depends on T_W bits of the time they are counted from (R57 (d)). -/
theorem rapidEdges_time (p : Params) (delay t : Nat) (es : List (Int × Nat)) :
    rapidEdges p delay (p.time t) es = rapidEdges p delay t es := by
  cases es with
  | nil => rfl
  | cons e es => simp only [rapidEdges, ← Params.elapsed_eq, Params.elapsed_from_time]

/-- What the last element of a list with one more in front gives, that one being the default of the rest. -/
theorem getD_map_getLast?_cons {α β : Type} (f : α → β) (x : α) (l : List α) (d : β) :
    ((x :: l).getLast?.map f).getD d = (l.getLast?.map f).getD (f x) := by
  rw [List.getLast?_cons, Option.map_some, Option.getD_some, Option.getD_map]

/-- Rapid edges accept nothing, and leave the last level and its time recorded (R97). -/
theorem execAll_rapidEdges {es : List (Int × Nat)} {s : State} (ha : s.accepts .button = true)
    (hes : rapidEdges s.params s.cfgDelay s.btnT es = true) :
    ∃ r cs, execAll (es.map fun e => .btnEdge e.1 e.2) s = some { s with
      btnLevel := (es.getLast?.map fun e => normLevel e.1).getD s.btnLevel
      btnT := (es.getLast?.map fun e => s.params.time e.2).getD s.btnT, result := r, calls := cs } := by
  induction es generalizing s with
  | nil => exact ⟨s.result, s.calls, rfl⟩
  | cons e es ih =>
    obtain ⟨l, now⟩ := e
    simp only [rapidEdges, Bool.and_eq_true, decide_eq_true_eq, ← Params.elapsed_eq] at hes
    obtain ⟨hlt, hrest⟩ := hes
    rw [List.map_cons, execAll_cons_of_next (exec_btnEdge_of_lt ha hlt l), getD_map_getLast?_cons, getD_map_getLast?_cons]
    exact ih (s := { s with btnLevel := normLevel l, btnT := s.params.time now, result := .none, calls := [] }) ha
      ((rapidEdges_time ..).trans hrest)

/-! The ideal output (R96, R99). -/

/-- The button registers against the history of edges, the latest first, after an operation at time `last`: the latest edge is
recorded, and `btn_out` is the ideal output at its time, unless its own level has been accepted since (R96). -/
def AgreesWithIdeal (s : State) (last : Nat) : List (Nat × Int) → Prop
  | [] => s.btnLevel = 0 ∧ s.btnOut = 0
  | (e, l) :: past =>
    e ≤ last ∧ s.btnLevel = normLevel l ∧ s.btnT = s.params.time e ∧
      (s.btnOut = idealOutput s.cfgDelay past e ∨ (s.cfgDelay ≤ last - e ∧ s.btnOut = s.btnLevel))

/-- The time of the latest edge. -/
def lastEdgeTime (past : List (Nat × Int)) : Option Nat := past.head?.map Prod.fst

/-- A time is less than 2^T_W ticks after the latest edge (R99). -/
def InWindow (p : Params) (past : List (Nat × Int)) (t : Nat) : Prop :=
  ∀ e, lastEdgeTime past = some e → t - e < 2 ^ p.tW

/-- The premises on time, for one operation and the rest (R99). -/
theorem timely_cons {p : Params} {past : List (Nat × Int)} {last : Nat} {op : ButtonOp} {ops : List ButtonOp}
    (h : timely p (lastEdgeTime past) last (op :: ops) = true) :
    last ≤ op.time ∧ InWindow p past op.time ∧
      timely p (lastEdgeTime (edgesBefore past [op])) op.time ops = true := by
  simp only [timely, Bool.and_eq_true, decide_eq_true_eq] at h
  obtain ⟨⟨hle, hwin⟩, hrest⟩ := h
  refine ⟨hle, fun e he => ?_, ?_⟩
  · rw [he] at hwin
    exact of_decide_eq_true hwin
  · cases op <;> exact hrest

/-- The history of a list of operations, from its first operation on. -/
theorem edgesBefore_cons (past : List (Nat × Int)) (op : ButtonOp) (ops : List ButtonOp) :
    edgesBefore past (op :: ops) = edgesBefore (edgesBefore past [op]) ops := by
  cases op <;> rfl

/-- In the window, the elapsed time from the recorded edge is the true one (R99). -/
theorem State.elapsed_since_edge {s : State} {e t : Nat} (htime : s.btnT = s.params.time e) (hle : e ≤ t)
    (hlt : t - e < 2 ^ s.params.tW) : s.params.elapsed t s.btnT = t - e := by
  rw [htime, Params.elapsed_from_time, Params.elapsed_eq_sub hle hlt]

/-- In the window, `Debounced` of registers that agree with the history is the ideal output (R93, R96). -/
theorem AgreesWithIdeal.debounced_eq {s : State} {last t : Nat} {past : List (Nat × Int)} (h : AgreesWithIdeal s last past)
    (hle : last ≤ t) (hw : InWindow s.params past t) : s.debounced t = idealOutput s.cfgDelay past t := by
  cases past with
  | nil =>
    obtain ⟨hlevel, hout⟩ := h
    rw [State.debounced_eq, hlevel, hout, ite_self, idealOutput]
  | cons x past =>
    obtain ⟨e, l⟩ := x
    obtain ⟨he, hlevel, htime, hout⟩ := h
    rw [State.debounced_eq, State.elapsed_since_edge htime (he.trans hle) (hw e rfl), idealOutput]
    split
    next => exact hlevel
    next hearly =>
      obtain hideal | ⟨hacc, -⟩ := hout
      · exact hideal
      · omega

/-- Settling keeps the agreement: it accepts the level of the latest edge or nothing (R91). -/
theorem AgreesWithIdeal.settle {s : State} {last t : Nat} {past : List (Nat × Int)} (h : AgreesWithIdeal s last past)
    (hle : last ≤ t) (hw : InWindow s.params past t) : AgreesWithIdeal (s.settle t) t past := by
  cases past with
  | nil =>
    obtain ⟨hlevel, hout⟩ := h
    exact ⟨hlevel, by rw [State.settle_btnOut, hlevel, hout, ite_self]⟩
  | cons x past =>
    obtain ⟨e, l⟩ := x
    obtain ⟨he, hlevel, htime, hout⟩ := h
    have hel : s.params.elapsed t s.btnT = t - e := State.elapsed_since_edge htime (he.trans hle) (hw e rfl)
    refine ⟨he.trans hle, hlevel, htime, ?_⟩
    by_cases hacc : s.cfgDelay ≤ t - e
    · exact .inr ⟨hacc, State.debounced_of_le (hel ▸ hacc)⟩
    · obtain hideal | ⟨hlast, -⟩ := hout
      · exact .inl ((State.debounced_of_lt (by omega)).trans hideal)
      · omega

/-- An edge settles `btn_out` to the ideal output at its time, and is recorded as the latest edge (R90, R96). -/
theorem AgreesWithIdeal.recordButton {s : State} {last t : Nat} {past : List (Nat × Int)} (h : AgreesWithIdeal s last past)
    (hle : last ≤ t) (hw : InWindow s.params past t) (l : Int) :
    AgreesWithIdeal ((s.settle t).recordButton (normLevel l) t) t ((t, l) :: past) :=
  ⟨le_rfl, rfl, rfl, .inl (h.debounced_eq hle hw)⟩

/-- A button operation at its true time keeps the agreement, and writes button registers only (R90, R92, R99). -/
theorem exec_buttonOp_agrees {s : State} {last : Nat} {past : List (Nat × Int)} {op : ButtonOp} (ha : s.accepts .button = true)
    (hb : s.cfgBtnPin ≠ s.params.pinNone) (h : AgreesWithIdeal s last past) (hle : last ≤ op.time)
    (hw : InWindow s.params past op.time) :
    ∃ u, exec (op.instr s.params) s = .next u ∧ AgreesWithIdeal u op.time (edgesBefore past [op]) ∧
      u = { s with btnLevel := u.btnLevel, btnT := u.btnT, btnOut := u.btnOut, result := .none, calls := [] } := by
  cases op with
  | edge l t =>
    exact ⟨_, (exec_btnEdge_time l t s).trans (exec_btnEdge_of_accepts ha l t), h.recordButton hle hw l, rfl⟩
  | tick t =>
    exact ⟨_, (exec_btnTick_time t s).trans (exec_btnTick_of_button ((s.accepts_iff _).1 ha).1 hb t), h.settle hle hw, rfl⟩

/-- After any timely history a timely READ_BTN returns the ideal output (R96, R99). -/
theorem execAll_buttonOps_readBtn {ops : List ButtonOp} {s : State} {last t : Nat} {past : List (Nat × Int)}
    (ha : s.accepts .button = true) (hb : s.cfgBtnPin ≠ s.params.pinNone) (h : AgreesWithIdeal s last past)
    (htimely : timely s.params (lastEdgeTime past) last (ops ++ [.tick t]) = true) :
    ∃ u, execAll (ops.map (ButtonOp.instr s.params)) s = some u ∧
      exec (.readBtn (s.params.time t)) u =
        .next (u.finish (.level (idealOutput s.cfgDelay (edgesBefore past ops) t)) []) := by
  induction ops generalizing s last past with
  | nil =>
    obtain ⟨hle, hw, -⟩ := timely_cons htimely
    refine ⟨s, rfl, ?_⟩
    have hread : s.debounced t = idealOutput s.cfgDelay past t := h.debounced_eq hle hw
    rw [exec_readBtn_time, exec_readBtn_of_button ((s.accepts_iff _).1 ha).1 hb, hread]
    rfl
  | cons op ops ih =>
    obtain ⟨hle, hw, hrest⟩ := timely_cons htimely
    obtain ⟨u, hu, hagrees, hframe⟩ := exec_buttonOp_agrees ha hb h hle hw
    have hparams : u.params = s.params := by rw [hframe]
    have hdelay : u.cfgDelay = s.cfgDelay := by rw [hframe]
    rw [List.map_cons, execAll_cons_of_next hu, edgesBefore_cons, ← hparams, ← hdelay]
    exact ih (by rw [hframe]; exact ha) (by rw [hframe]; exact hb) hagrees (hparams ▸ hrest)

/-! Noninterference (R98 (d), R124). -/

/-- INIT answers an error or opens the session by its operands and the parameters alone (R100 to R102). -/
theorem initSession_uniform (c : InitOperands) (p : Params) :
    (∃ r cs, ∀ s : State, s.params = p → initSession c s = s.finish r cs) ∨
      ∃ m want cs, ∀ s : State, s.params = p → initSession c s = (s.openSession c m want).finish (.status .ok) cs := by
  cases hm : Mode.ofOperand c.mode with
  | none => exact .inl ⟨_, _, fun s hs => by simp only [initSession, hm]; rfl⟩
  | some m =>
    by_cases hpins : pinsCollide c p.pinNone = true
    · exact .inl ⟨_, _, fun s hs => by simp only [initSession, hm, hs, if_pos hpins]; rfl⟩
    · by_cases hreg : wantedHandlers m (c.btnPin != p.pinNone) &&& ~~~c.regOk ≠ 0
      · exact .inl ⟨_, _, fun s hs => by simp only [initSession, hm, hs, if_neg hpins, if_pos hreg]; rfl⟩
      · exact .inr ⟨m, _, _, fun s hs => by simp only [initSession, hm, hs, if_neg hpins, if_neg hreg]; rfl⟩

/-- The decode of a mode reads `abAB` and `tstate` alone, and writes no other register (R62, R63). -/
theorem runMode_with_registers (m : Mode) (a b : Int) (s s' : State) :
    runMode m a b { s' with abAB := s.abAB, tstate := s.tstate } =
      (runMode m a b s).map fun q => (q.1, { s' with abAB := q.2.abAB, tstate := q.2.tstate }) := by
  cases m with
  | singleEdge => rfl
  | lookupTable => rfl
  | halfStep => simp only [runMode, runHs, Option.map_map]; rfl
  | fullStep => simp only [runMode, runFs, Option.map_map]; rfl

/-! The decoder's view: each update of the state leaves a view that depends on the view before it alone. -/

theorem decoderView_openSession_congr {s s' : State} (h : decoderView s = decoderView s') (c : InitOperands) (m : Mode)
    (want : BitVec 5) : decoderView (s.openSession c m want) = decoderView (s'.openSession c m want) := by
  simp only [decoderView, Prod.mk.injEq] at h
  simp [decoderView, h]

theorem decoderView_tear_congr {s s' : State} (h : decoderView s = decoderView s') :
    decoderView s.tear = decoderView s'.tear := by
  simp only [decoderView, Prod.mk.injEq] at h
  simp [decoderView, h]

theorem decoderView_closeSession_congr {s s' : State} (h : decoderView s = decoderView s') :
    decoderView s.closeSession = decoderView s'.closeSession := by
  simp only [decoderView, Prod.mk.injEq] at h
  simp [decoderView, h]

theorem decoderView_clearDir_congr {s s' : State} (h : decoderView s = decoderView s') :
    decoderView s.clearDir = decoderView s'.clearDir := by
  simp only [decoderView, Prod.mk.injEq] at h
  simp [decoderView, h]

theorem decoderView_writeBack_congr {s s' : State} (h : decoderView s = decoderView s') (d : Direction) :
    decoderView (s.writeBack d) = decoderView (s'.writeBack d) := by
  simp only [decoderView, Prod.mk.injEq] at h
  simp [decoderView, h]

/-- States that look alike to the decoder accept the same kinds. -/
theorem accepts_congr_decoderView {s s' : State} (h : decoderView s = decoderView s') (k : HandlerKind) :
    s.accepts k = s'.accepts k := by
  simp only [decoderView, Prod.mk.injEq] at h
  simp only [State.accepts, h]

/-- INIT answers alike in states that look alike to the decoder. -/
theorem decoderView_initSession_congr {s s' : State} (h : decoderView s = decoderView s') (c : InitOperands) :
    decoderView (initSession c s) = decoderView (initSession c s') := by
  have hparams : s.params = s'.params := congrArg Prod.fst h
  obtain ⟨r, cs, hfail⟩ | ⟨m, want, cs, hopen⟩ := initSession_uniform c s'.params
  · rw [hfail s hparams, hfail s' rfl]
    exact h
  · rw [hopen s hparams, hopen s' rfl]
    exact decoderView_openSession_congr h c m want

/-- The decode of a mode answers alike in states that look alike to the decoder. -/
theorem runMode_congr_decoderView {m : Mode} {a b : Int} {s s' s₁ : State} {d : Direction}
    (h : decoderView s = decoderView s') (hd : runMode m a b s = some (d, s₁)) :
    ∃ s₁', runMode m a b s' = some (d, s₁') ∧ decoderView s₁ = decoderView s₁' := by
  simp only [decoderView, Prod.mk.injEq] at h
  have hs' : s' = { s' with abAB := s.abAB, tstate := s.tstate } := by simp only [h]
  refine ⟨{ s' with abAB := s₁.abAB, tstate := s₁.tstate }, ?_, ?_⟩
  · rw [hs', runMode_with_registers, hd]
    rfl
  · rw [runMode_frame hd]
    simp only [decoderView, h]

/-- What every operation leaves in the decoder's view depends on that view alone (R98 (d)). -/
theorem exec_congr_decoderView {i : Instr} {s s' t : State} (hv : decoderView s = decoderView s')
    (h : exec i s = .next t) : ∃ t', exec i s' = .next t' ∧ decoderView t = decoderView t' := by
  have hparams : s.params = s'.params := congrArg Prod.fst hv
  have hphase : s.phase = s'.phase := congrArg (fun v => v.2.1) hv
  obtain ⟨c, rfl⟩ | rfl | rfl | ⟨now, rfl⟩ | ⟨k, m, a, b, rfl⟩ | ⟨l, now, rfl⟩ | ⟨now, rfl⟩ := instr_cases i
  · obtain ⟨hidle, rfl⟩ := exec_init_next h
    rw [hparams]
    exact ⟨_, exec_init_of_idle c (hphase ▸ hidle), decoderView_initSession_congr hv _⟩
  · refine ⟨_, rfl, ?_⟩
    rw [exec_teardown_next h, hphase]
    split
    · exact (decoderView_closeSession_congr (decoderView_tear_congr hv) :)
    · exact (decoderView_closeSession_congr hv :)
  · obtain ⟨hactive, rfl⟩ := exec_readDir_next h
    exact ⟨_, exec_readDir_of_active (hphase ▸ hactive), (decoderView_clearDir_congr hv :)⟩
  · obtain ⟨hactive, rfl⟩ := exec_readBtn_next h
    exact ⟨_, if_pos (hphase ▸ hactive), hv⟩
  · obtain ⟨ha, rfl⟩ | ⟨d, s₁, ha, hd, rfl⟩ := exec_edgeInstr_next h
    · exact ⟨_, exec_edgeInstr_of_not_accepts (accepts_congr_decoderView hv _ ▸ ha), hv⟩
    · obtain ⟨s₁', hd', hv₁⟩ := runMode_congr_decoderView hv hd
      exact ⟨_, exec_edgeInstr_of_some (accepts_congr_decoderView hv _ ▸ ha) hd', decoderView_writeBack_congr hv₁ d⟩
  · obtain ⟨u, hu⟩ := exec_btnEdge_completes l now s'
    refine ⟨_, hu, ?_⟩
    rw [exec_btnEdge_frame h, exec_btnEdge_frame hu]
    exact hv
  · obtain ⟨u, hu⟩ := exec_btnTick_completes now s'
    refine ⟨_, hu, ?_⟩
    rw [exec_btnTick_frame h, exec_btnTick_frame hu]
    exact hv

/-! The debouncer's view, in the same way. -/

theorem buttonView_openSession_congr {s s' : State} (h : buttonView s = buttonView s') (c : InitOperands) (m : Mode)
    (want : BitVec 5) : buttonView (s.openSession c m want) = buttonView (s'.openSession c m want) := by
  simp only [buttonView, Prod.mk.injEq] at h
  simp [buttonView, h]

theorem buttonView_tear_congr {s s' : State} (h : buttonView s = buttonView s') :
    buttonView s.tear = buttonView s'.tear := by
  simp only [buttonView, Prod.mk.injEq] at h
  simp [buttonView, h]

theorem buttonView_closeSession_congr {s s' : State} (h : buttonView s = buttonView s') :
    buttonView s.closeSession = buttonView s'.closeSession := by
  simp only [buttonView, Prod.mk.injEq] at h
  simp [buttonView, h]

theorem buttonView_settle_congr {s s' : State} (h : buttonView s = buttonView s') (now : Nat) :
    buttonView (s.settle now) = buttonView (s'.settle now) := by
  simp only [buttonView, Prod.mk.injEq] at h
  simp [buttonView, State.settles, h]

theorem buttonView_recordButton_congr {s s' : State} (h : buttonView s = buttonView s') (l : Level) (now : Nat) :
    buttonView (s.recordButton l now) = buttonView (s'.recordButton l now) := by
  simp only [buttonView, Prod.mk.injEq] at h
  simp [buttonView, h]

/-- States that look alike to the debouncer accept the same kinds. -/
theorem accepts_congr_buttonView {s s' : State} (h : buttonView s = buttonView s') (k : HandlerKind) :
    s.accepts k = s'.accepts k := by
  simp only [buttonView, Prod.mk.injEq] at h
  simp only [State.accepts, h]

/-- States that look alike to the debouncer have a button attached or none, both. -/
theorem hasButton_congr_buttonView {s s' : State} (h : buttonView s = buttonView s') : s.hasButton = s'.hasButton := by
  simp only [buttonView, Prod.mk.injEq] at h
  simp only [State.hasButton, h]

/-- INIT answers alike in states that look alike to the debouncer. -/
theorem buttonView_initSession_congr {s s' : State} (h : buttonView s = buttonView s') (c : InitOperands) :
    buttonView (initSession c s) = buttonView (initSession c s') := by
  have hparams : s.params = s'.params := congrArg Prod.fst h
  obtain ⟨r, cs, hfail⟩ | ⟨m, want, cs, hopen⟩ := initSession_uniform c s'.params
  · rw [hfail s hparams, hfail s' rfl]
    exact h
  · rw [hopen s hparams, hopen s' rfl]
    exact buttonView_openSession_congr h c m want

/-- What every operation that completes leaves in the debouncer's view depends on that view alone (R98 (d)). -/
theorem exec_congr_buttonView {i : Instr} {s s' t t' : State} (hv : buttonView s = buttonView s')
    (h : exec i s = .next t) (h' : exec i s' = .next t') : buttonView t = buttonView t' := by
  have hparams : s.params = s'.params := congrArg Prod.fst hv
  have hphase : s.phase = s'.phase := congrArg (fun v => v.2.1) hv
  obtain ⟨c, rfl⟩ | rfl | rfl | ⟨now, rfl⟩ | ⟨k, m, a, b, rfl⟩ | ⟨l, now, rfl⟩ | ⟨now, rfl⟩ := instr_cases i
  · rw [(exec_init_next h).2, (exec_init_next h').2, hparams]
    exact buttonView_initSession_congr hv _
  · rw [exec_teardown_next h, exec_teardown_next h', hphase]
    split
    · exact (buttonView_closeSession_congr (buttonView_tear_congr hv) :)
    · exact (buttonView_closeSession_congr hv :)
  · rw [(exec_readDir_next h).2, (exec_readDir_next h').2]
    exact hv
  · rw [(exec_readBtn_next h).2, (exec_readBtn_next h').2]
    exact hv
  · rw [(exec_edgeInstr_frame h).1, (exec_edgeInstr_frame h').1]
    exact hv
  · have hacc : s.accepts .button = s'.accepts .button := accepts_congr_buttonView hv .button
    obtain ⟨ha, rfl⟩ | ⟨ha, rfl⟩ := exec_btnEdge_next h
    · rw [exec_btnEdge_of_not_accepts (hacc ▸ ha)] at h'
      cases h'
      exact hv
    · rw [exec_btnEdge_of_accepts (hacc ▸ ha)] at h'
      cases h'
      exact buttonView_recordButton_congr (buttonView_settle_congr hv now) _ now
  · have hbtn : s.hasButton = s'.hasButton := hasButton_congr_buttonView hv
    obtain ⟨hn, rfl⟩ | ⟨hb, rfl⟩ := exec_btnTick_next h
    · rw [hphase, hbtn, s'.hasButton_iff] at hn
      rw [exec_btnTick_of_no_button hn] at h'
      cases h'
      exact hv
    · rw [hphase, hbtn, s'.hasButton_iff] at hb
      rw [exec_btnTick_of_button hb.1 hb.2] at h'
      cases h'
      exact buttonView_settle_congr hv now

/-! The statements. -/

/-- Settles O28: the key is that of BTN_EDGE, and an accepted edge settles the level that stood before it is replaced. -/
theorem btnEdgeSettlesThenRecords : Obligations.BtnEdgeSettlesThenRecords := by
  refine ⟨fun m side l => decode_btnEdgeKey m l side, fun l now s => ⟨fun hs hen => ?_, fun hen => ?_, fun hen => ?_⟩⟩
  · obtain ⟨-, -, hmatch, -⟩ := hs
    exact hmatch.hasButton ((s.accepts_iff _).2 hen)
  · rw [exec_btnEdge_of_accepts ((s.accepts_iff _).2 hen), ← s.ite_settles]
    rfl
  · exact exec_btnEdge_of_not_accepts ((s.accepts_eq_false_iff .button).2 hen) l now

/-- Settles O29: the key is that of BTN_TICK, and an accepted tick is `Settle` alone. -/
theorem btnTickSettles : Obligations.BtnTickSettles := by
  refine ⟨fun m side => EventWordOf.btnTick.decode_key, fun now s => ⟨fun hb => ?_, fun hb => ?_⟩⟩
  · rw [exec_btnTick_of_button hb.1 hb.2, ← s.ite_settles]
    rfl
  · exact exec_btnTick_of_no_button hb now

/-- Settles O30: INIT leaves the button detached, every operation but TEARDOWN keeps it so, and then the button operations
are ignored. -/
theorem noButtonDisablesTheDebouncer : Obligations.NoButtonDisablesTheDebouncer := by
  intro c is l now s t u hc hinit hok his hrun
  have hu := (ButtonDetached.of_exec_init hc hinit hok).of_execAll his hrun
  exact ⟨hu.disabled, hu.level, hu.time, hu.out, hu.exec_btnEdge l now, hu.exec_btnTick now,
    exec_readBtn_of_no_button hu.active hu.detached now⟩

/-- Settles O31: the tick is `Settle`, which leaves what `Debounced` returns later. -/
theorem tickNeverChangesALaterRead : Obligations.TickNeverChangesALaterRead := by
  intro now later s hp hb hle
  rw [← Params.elapsed_eq, ← Params.elapsed_eq] at hle
  refine ⟨_, s.debounced later, exec_btnTick_of_button hp hb now, ?_, exec_readBtn_of_button hp hb later⟩
  rw [← State.debounced_settle hle]
  exact exec_readBtn_of_button (s := (s.settle now).finish .none []) hp hb later

/-- Settles O32: rapid edges are only recorded, and from the delay on the recorded level is what `Settle` accepts. -/
theorem bounceIsDiscarded : Obligations.BounceIsDiscarded := by
  intro es s hp hen hb hes
  obtain ⟨r, cs, hrun⟩ := execAll_rapidEdges ((s.accepts_iff .button).2 ⟨hp, hen⟩) hes
  refine ⟨_, hrun, rfl, rfl, rfl, fun now hle => ?_⟩
  rw [← Params.elapsed_eq] at hle
  exact exec_btnTick_of_le hp hb hle

/-- Settles O33: freshly reset button registers agree with the empty history, and every operation keeps the agreement. -/
theorem debouncerReturnsTheIdealOutput : Obligations.DebouncerReturnsTheIdealOutput := by
  intro ops t s hp hen hb hlevel hout htimely
  exact execAll_buttonOps_readBtn (past := []) ((s.accepts_iff .button).2 ⟨hp, hen⟩) hb ⟨hlevel, hout⟩ htimely

/-- Settles O49: each half of the block reads and writes its own view. -/
theorem decoderAndDebouncerDoNotInterfere : Obligations.DecoderAndDebouncerDoNotInterfere :=
  ⟨fun _ _ _ _ hv h => exec_congr_decoderView hv h, fun _ _ _ _ _ hv h h' => exec_congr_buttonView hv h h'⟩

end Sys2Proof.Machine
end

section
/-! PROOFS. The statements of 46_session.md: what INIT does with invalid and with valid operands (R100 to R103), the handlers
of a mask (R102), READ_DIR and READ_BTN (R104, R105), TEARDOWN and the idle block it leaves (R106), and how `phase` moves
(R107). -/

namespace Sys2Proof.Machine

/-! INIT (R100 to R103). -/

/-- The operands are valid exactly when the pins do not collide, at their widths, and the mode is recognised (R101). -/
theorem validOperands_iff (p : Params) (c : InitOperands) :
    validOperands p c ↔ pinsCollide (c.atWidths p) p.pinNone = false ∧ c.mode.toNat ≤ 3 := by
  simp only [validOperands, pinsCollide_eq_false_iff, InitOperands.atWidths_pinA, InitOperands.atWidths_pinB,
    InitOperands.atWidths_btnPin, and_assoc]

/-- The handlers asked for under a mask, at the pins' widths (R102). -/
def askedHandlers (p : Params) (c : InitOperands) : List SourceCall :=
  (registrations (wantOf p c) (c.atWidths p)).map .onEdge

/-- INIT with invalid operands raises ConfigurationError (R101). -/
theorem exec_init_of_invalid {c : InitOperands} {s : State} (hp : s.phase = .idle) (hv : ¬validOperands s.params c) :
    exec (.init c) s = .next (s.finish (.status .configurationError) []) := by
  rw [exec_init_of_idle c hp, initSession, InitOperands.atWidths_mode]
  by_cases hm : c.mode.toNat ≤ 3
  · have hpins : pinsCollide (c.atWidths s.params) s.params.pinNone = true := by
      rw [← Bool.not_eq_false]
      exact fun hpins => hv ((validOperands_iff ..).2 ⟨hpins, hm⟩)
    simp only [Mode.ofOperand_of_le hm, if_pos hpins, State.raise_eq_finish]
  · simp only [Mode.ofOperand_of_lt (Nat.lt_of_not_le hm), State.raise_eq_finish]

/-- INIT with valid operands asks for the wanted handlers, and then raises RegistrationError or opens the session (R102,
R103). -/
theorem exec_init_of_valid {c : InitOperands} {s : State} (hp : s.phase = .idle) (hv : validOperands s.params c) :
    exec (.init c) s = .next (
      if wantOf s.params c &&& ~~~c.regOk ≠ 0 then
        s.finish (.status .registrationError) (askedHandlers s.params c ++ cancellations (wantOf s.params c &&& c.regOk))
      else
        (s.openSession (c.atWidths s.params) (Mode.ofCode (c.mode.extractLsb' 0 2)) (wantOf s.params c)).finish
          (.status .ok) (askedHandlers s.params c)) := by
  obtain ⟨hpins, hm⟩ := (validOperands_iff ..).1 hv
  rw [exec_init_of_idle c hp, initSession, InitOperands.atWidths_mode]
  simp only [Mode.ofOperand_of_le hm, hpins, Bool.false_eq_true, if_false, InitOperands.atWidths_btnPin,
    InitOperands.atWidths_regOk, wantedHandlers_ofCode hm, State.raise_eq_finish, askedHandlers]

/-- INIT with a wanted handler refused raises RegistrationError and cancels those installed (R102). -/
theorem exec_init_of_refused {c : InitOperands} {s : State} (hp : s.phase = .idle) (hv : validOperands s.params c)
    (hr : wantOf s.params c &&& ~~~c.regOk ≠ 0) :
    exec (.init c) s = .next (s.finish (.status .registrationError)
      (askedHandlers s.params c ++ cancellations (wantOf s.params c &&& c.regOk))) := by
  rw [exec_init_of_valid hp hv, if_pos hr]

/-- INIT with every wanted handler installed opens the session (R103). -/
theorem exec_init_of_installed {c : InitOperands} {s : State} (hp : s.phase = .idle) (hv : validOperands s.params c)
    (hr : wantOf s.params c &&& ~~~c.regOk = 0) :
    exec (.init c) s = .next
      ((s.openSession (c.atWidths s.params) (Mode.ofCode (c.mode.extractLsb' 0 2)) (wantOf s.params c)).finish
        (.status .ok) (askedHandlers s.params c)) := by
  rw [exec_init_of_valid hp hv, if_neg (not_not_intro hr)]

/-- INIT with valid operands does not return ConfigurationError (R101). -/
theorem exec_init_result_of_valid {c : InitOperands} {s t : State} (hv : validOperands s.params c)
    (h : exec (.init c) s = .next t) : t.result ≠ .status .configurationError := by
  obtain ⟨hp, -⟩ := exec_init_next h
  rw [exec_init_of_valid hp hv] at h
  cases h
  split
  · nofun
  · nofun

/-- INIT leaves a live session only when it opened one: its operands are valid, every wanted handler is installed and it
returns OK (R100, R107). -/
theorem exec_init_active {c : InitOperands} {s t : State} (h : exec (.init c) s = .next t) (ht : t.phase = .active) :
    validOperands s.params c ∧ wantOf s.params c &&& ~~~c.regOk = 0 ∧ t.result = .status .ok := by
  obtain ⟨hp, -⟩ := exec_init_next h
  by_cases hv : validOperands s.params c
  · by_cases hr : wantOf s.params c &&& ~~~c.regOk = 0
    · rw [exec_init_of_installed hp hv hr] at h
      cases h
      exact ⟨hv, hr, rfl⟩
    · rw [exec_init_of_refused hp hv hr] at h
      cases h
      cases hp.symm.trans ht
  · rw [exec_init_of_invalid hp hv] at h
    cases h
    cases hp.symm.trans ht

/-! The handlers of a mask (R102). -/

/-- Some notification kind has a property exactly when one of the five has it (R12). -/
theorem exists_handlerKind_iff {P : HandlerKind → Prop} :
    (∃ k, P k) ↔
      P (.edge .aRise) ∨ P (.edge .aFall) ∨ P (.edge .bRise) ∨ P (.edge .bFall) ∨ P .button := by
  constructor
  · rintro ⟨(_ | _ | _ | _) | _, h⟩ <;> simp only [h, true_or, or_true]
  · rintro (h | h | h | h | h) <;> exact ⟨_, h⟩

/-- The handlers of a mask: each kind whose bit is set, on its pin (R102). -/
theorem mem_registrations_iff (mask : BitVec 5) (c : InitOperands) (r : Registration) :
    r ∈ registrations mask c ↔ ∃ k, r = ⟨c.pinOf k, k⟩ ∧ mask.getLsbD k.bit = true := by
  simp only [registrations, List.mem_map, mem_handlerKinds, and_comm, eq_comm]

/-- The cancellations of a mask: each kind whose bit is set (R102, log 18). -/
theorem mem_cancellations_iff (mask : BitVec 5) (x : SourceCall) :
    x ∈ cancellations mask ↔ ∃ k, x = .cancel k ∧ mask.getLsbD k.bit = true := by
  simp only [cancellations, List.mem_map, mem_handlerKinds, and_comm, eq_comm]

/-! Operations out of phase (R107). -/

theorem exec_init_of_active {s : State} (h : s.phase = .active) (c : InitOperands) :
    exec (.init c) s = .refused .initWhileActive :=
  if_pos h

theorem exec_readDir_of_idle {s : State} (h : s.phase = .idle) : exec .readDir s = .refused .readDirWhileIdle :=
  if_neg (by simp [h])

theorem exec_readBtn_of_idle {s : State} (h : s.phase = .idle) (now : Nat) :
    exec (.readBtn now) s = .refused .readBtnWhileIdle :=
  if_neg (by simp [h])

/-! READ_BTN in a session (R105). -/

/-- READ_BTN returns 0 with no button, else the recorded level when it stands long enough, else `btn_out` (R93, R105). -/
theorem exec_readBtn_of_active {s : State} (hp : s.phase = .active) (now : Nat) :
    exec (.readBtn now) s = .next (s.finish (.level
      (if s.cfgBtnPin = s.params.pinNone then 0 else if standsLongEnough s now then s.btnLevel else s.btnOut)) []) := by
  by_cases hb : s.cfgBtnPin = s.params.pinNone
  · rw [exec_readBtn_of_no_button hp hb, if_pos hb]
  · rw [exec_readBtn_of_button hp hb, if_neg hb, State.debounced, s.ite_settles]

/-! TEARDOWN, and the idle block (R106). -/

/-- Closing a closed session changes nothing. -/
theorem State.closeSession_of_idle {s : State} (hp : s.phase = .idle) (he : s.evEn = 0) : s.closeSession = s := by
  rw [State.closeSession, ← hp, ← he]

/-- TEARDOWN in phase IDLE with nothing enabled changes no register and cancels nothing (R106). -/
theorem exec_teardown_of_idle {s : State} (hp : s.phase = .idle) (he : s.evEn = 0) :
    exec .teardown s = .next (s.finish (.status .ok) []) := by
  have hna : s.phase ≠ .active := by simp [hp]
  have hnone : cancellations s.evEn = [] := he ▸ cancellations_zero
  rw [exec, execTeardown, if_neg hna, State.closeSession_of_idle hp he, hnone]

/-- In phase IDLE no notification kind is accepted (R60). -/
theorem State.accepts_of_idle {s : State} (hp : s.phase = .idle) (k : HandlerKind) : s.accepts k = false :=
  (s.accepts_eq_false_iff k).2 fun ⟨ha, _⟩ => by cases hp.symm.trans ha

/-- In phase IDLE every handler operation is ignored (R60, R90, R92). -/
theorem exec_handler_of_idle {i : Instr} {s : State} (hp : s.phase = .idle) (hi : agentOf i = .handler) :
    exec i s = .next (s.finish .none []) := by
  obtain ⟨k, m, a, b, rfl⟩ | ⟨l, now, rfl⟩ | ⟨now, rfl⟩ := handler_cases hi
  · exact exec_edgeInstr_of_not_accepts (s.accepts_of_idle hp _)
  · exact exec_btnEdge_of_not_accepts (s.accepts_of_idle hp _) l now
  · exact exec_btnTick_of_no_button (fun ⟨ha, _⟩ => by cases hp.symm.trans ha) now

/-- In phase IDLE every run of handler operations completes and changes no register (R106). -/
theorem execAll_handlers_of_idle {is : List Instr} {s : State} (hp : s.phase = .idle)
    (his : ∀ i ∈ is, agentOf i = .handler) : ∃ r cs, execAll is s = some (s.finish r cs) := by
  induction is generalizing s with
  | nil => exact ⟨s.result, s.calls, rfl⟩
  | cons i is ih =>
    rw [List.forall_mem_cons] at his
    rw [execAll_cons_of_next (exec_handler_of_idle hp his.1)]
    exact ih (s := s.finish .none []) hp his.2

/-- Only an operation of the owner moves `phase` (R107). -/
theorem exec_phase_of_ne_owner {i : Instr} {s t : State} (ho : agentOf i ≠ .owner) (h : exec i s = .next t) :
    t.phase = s.phase := by
  rw [exec_frame_of_ne_owner ho h]

/-! The statements. -/

/-- Settles O34: each condition of R101 makes the operands invalid, and valid operands never give ConfigurationError. -/
theorem initRejectsAnInvalidConfiguration : Obligations.InitRejectsAnInvalidConfiguration := by
  refine fun c s hp => ⟨fun hbad => exec_init_of_invalid hp ?_, fun t h hres hv => exec_init_result_of_valid hv h hres⟩
  rintro ⟨hA, hB, hAB, hBtn, hmode⟩
  obtain h | h | h | ⟨hsome, hclash⟩ | h := hbad
  · exact hA h
  · exact hB h
  · exact hAB h
  · obtain hnone | ⟨hneA, hneB⟩ := hBtn
    · exact hsome hnone
    · exact hclash.elim hneA hneB
  · omega

/-- Settles O41: TEARDOWN closes the session, and a closed session it leaves as it is. -/
theorem teardownEndsTheSession : Obligations.TeardownEndsTheSession := by
  refine ⟨fun m side => EventWordOf.teardown.decode_key, fun s => ⟨_, rfl, rfl, rfl, rfl, rfl, ?_, ?_, ?_⟩⟩
  · cases s.phase <;> rfl
  · exact fun hp he => (exec_teardown_next (exec_teardown_of_idle hp he)).symm
  · exact exec_teardown_of_idle rfl rfl

/-- Settles O42: in phase IDLE every handler operation is ignored, by induction on the list. -/
theorem handlersCannotTouchAnIdleBlock : Obligations.HandlersCannotTouchAnIdleBlock := by
  intro is s hp his
  obtain ⟨r, cs, hrun⟩ := execAll_handlers_of_idle hp his
  exact ⟨_, hrun, rfl⟩

/-- Settles O43: only the owner's two operations move `phase`, and INIT only by opening the session. -/
theorem phaseMovesOnlyByInitAndTeardown : Obligations.PhaseMovesOnlyByInitAndTeardown := by
  intro i s t h
  by_cases ho : agentOf i = .owner
  · obtain ⟨c, rfl⟩ | rfl := owner_cases ho
    · refine ⟨fun _ ht => ⟨c, rfl, exec_init_active h ht⟩, fun hs _ => ?_⟩
      cases hs.symm.trans (exec_init_next h).1
    · refine ⟨fun _ ht => ?_, fun _ _ => rfl⟩
      rw [exec_teardown_next h] at ht
      cases ht
  · have hphase := exec_phase_of_ne_owner ho h
    refine ⟨fun hs ht => ?_, fun hs ht => ?_⟩
    · cases hs.symm.trans (hphase.symm.trans ht)
    · cases hs.symm.trans (hphase.symm.trans ht)

/-- Settles O35: valid operands with a refused handler. -/
theorem initReportsARefusedHandler : Obligations.InitReportsARefusedHandler :=
  fun _ _ hp hv hr => exec_init_of_refused hp hv hr

/-- Settles O36: valid operands with every handler installed, the mode being that of the operand's low bits. -/
theorem initOpensASession : Obligations.InitOpensASession :=
  fun _ _ hp hv hr => ⟨_, Mode.code_ofCode _, exec_init_of_installed hp hv hr⟩

/-- Settles O37: both lists are made of the kinds of the mask, of which there are five. -/
theorem registrationsFollowTheMask : Obligations.RegistrationsFollowTheMask :=
  fun mask c => ⟨fun r => (mem_registrations_iff mask c r).trans exists_handlerKind_iff,
    fun x => (mem_cancellations_iff mask x).trans exists_handlerKind_iff⟩

/-- Settles O38: each of the three operations tests `phase` first. -/
theorem sessionOperationsOutOfPhaseAreRefused : Obligations.SessionOperationsOutOfPhaseAreRefused :=
  fun c now _ => ⟨fun h => exec_init_of_active h c, exec_readDir_of_idle, fun h => exec_readBtn_of_idle h now⟩

/-- Settles O39: READ_DIR clears `dir`, which is then what a second one returns. -/
theorem readDirReadsAndClears : Obligations.ReadDirReadsAndClears := by
  refine ⟨fun m side => EventWordOf.readDir.decode_key, fun s => ⟨exec_readDir_of_idle, fun hp => ?_⟩⟩
  exact ⟨_, rfl, exec_readDir_of_active hp, exec_readDir_of_active hp⟩

/-- Settles O40: READ_BTN writes no register, so a second one reads the same ones. -/
theorem readBtnReturnsTheDebouncedLevel : Obligations.ReadBtnReturnsTheDebouncedLevel := by
  refine ⟨fun m side => EventWordOf.readBtn.decode_key, fun now s => ⟨fun hp => exec_readBtn_of_idle hp now, fun hp => ?_⟩⟩
  exact ⟨_, rfl, exec_readBtn_of_active hp now, exec_readBtn_of_active hp now⟩

end Sys2Proof.Machine
end

section
/-! PROOFS. The statements of 70_reset_and_hazards.md: the registers after power-on (R130), the readings that lead to the rest
rows of the two transition tables (R136), and the emissions of one clean turn in the three table modes (R142). -/

namespace Sys2Proof.Machine

/-! An edge row whose mode has a transition table (R62, R63). -/

/-- The decode of mode `m` reads one entry of the table `read`, and takes from it the direction and the new row (R80, R85). -/
def ReadsTable (m : Mode) (read : BitVec 4 → BitVec 2 → Option (BitVec 8)) : Prop :=
  ∀ (a b : Int) (s : State), runMode m a b s =
    (read s.tstate (columnIndex (normLevel a) (normLevel b))).map fun e => (entryDirection e, s.setTstate (entryNextRow e))

/-- HalfStep decodes by `HS` (R80). -/
theorem readsTable_halfStep : ReadsTable .halfStep romReadHs := runMode_halfStep

/-- FullStep decodes by `FS` (R85). -/
theorem readsTable_fullStep : ReadsTable .fullStep romReadFs := runMode_fullStep

/-- An accepted row that completes leaves in `tstate` the next row of an entry in the column of its readings. -/
theorem ReadsTable.tstate_of_exec {m : Mode} {read : BitVec 4 → BitVec 2 → Option (BitVec 8)} (h : ReadsTable m read)
    {k : EdgeKind} {a b : Int} {s t : State} (ha : s.accepts (.edge k) = true)
    (hexec : exec (edgeInstr k m a b) s = .next t) :
    ∃ e, read s.tstate (columnIndex (normLevel a) (normLevel b)) = some e ∧ t.tstate = entryNextRow e := by
  obtain ⟨hna, -⟩ | ⟨d, s', -, hrun, rfl⟩ := exec_edgeInstr_next hexec
  · cases ha.symm.trans hna
  · rw [h, Option.map_eq_some_iff] at hrun
    obtain ⟨e, he, heq⟩ := hrun
    cases heq
    exact ⟨e, he, rfl⟩

/-- Where every entry of a column has the same next row, the readings of that column lead to it from any row (R136). -/
theorem ReadsTable.tstate_of_column {m : Mode} {read : BitVec 4 → BitVec 2 → Option (BitVec 8)} (h : ReadsTable m read)
    {c : BitVec 2} {n : BitVec 4} (hcol : ∀ r, ((read r c).all fun e => entryNextRow e = n) = true)
    {k : EdgeKind} {a b : Int} {s t : State} (ha : s.accepts (.edge k) = true)
    (hc : columnIndex (normLevel a) (normLevel b) = c) (hexec : exec (edgeInstr k m a b) s = .next t) : t.tstate = n := by
  obtain ⟨e, he, ht⟩ := h.tstate_of_exec ha hexec
  rw [hc] at he
  exact ht.trans (of_decide_eq_true ((Option.all_eq_true _ _).1 (hcol _) e he))

/-- Two high readings are column 3 (R49). -/
theorem columnIndex_of_high {a b : Int} (ha : high a) (hb : high b) : columnIndex (normLevel a) (normLevel b) = 3 := by
  rw [normLevel_of_high ha, normLevel_of_high hb]; rfl

/-- Two low readings are column 0 (R49). -/
theorem columnIndex_of_not_high {a b : Int} (ha : ¬high a) (hb : ¬high b) :
    columnIndex (normLevel a) (normLevel b) = 0 := by
  rw [normLevel_of_not_high ha, normLevel_of_not_high hb]; rfl

/-! Runs of edge rows. -/

/-- In a session of a table mode all four edge kinds are accepted (R12, R60). -/
theorem SessionInv.accepts_edge {s : State} (h : SessionInv s) (hp : s.phase = .active) (hm : s.cfgMode ≠ .singleEdge)
    (k : EdgeKind) : s.accepts (.edge k) = true := by
  obtain ⟨-, -, hen, -⟩ := h
  exact (hen.accepts_edge_iff hm k).2 hp

/-- An edge row leaves every kind accepted or not as it was (R12, R60). -/
theorem accepts_of_exec_edgeInstr {k : EdgeKind} {m : Mode} {a b : Int} {s t : State}
    (h : exec (edgeInstr k m a b) s = .next t) (j : HandlerKind) : t.accepts j = s.accepts j := by
  rw [(exec_edgeInstr_frame h).1]; rfl

/-- The operations of a list of readings begin with that of the first. -/
theorem triggers_cons (m : Mode) (r : Reading) (rs : List Reading) :
    triggers m (r :: rs) = edgeInstr r.kind m (ofPort r.a) (ofPort r.b) :: triggers m rs := rfl

/-- An accepted edge row adds to the sum of the emissions the direction it leaves in `last_dir` (R63). -/
theorem emittedSum_cons {k : EdgeKind} {m : Mode} {a b : Int} {s t : State} (ha : s.accepts (.edge k) = true)
    (h : exec (edgeInstr k m a b) s = .next t) (is : List Instr) :
    emittedSum (edgeInstr k m a b :: is) s = t.lastDir.toInt + emittedSum is t := by
  rw [emittedSum, emissions_cons h, emissionOf_edgeInstr_of_accepts ha, List.map_append, List.sum_append, ← emittedSum]
  cases t.lastDir <;> rfl

/-! A clean turn (R142). -/

/-- The step on the +1 cycle from one reading to the next, which is the entry of `LUT` for the two (R31, R78). -/
def turnStep (a b a' b' : Level) : Int :=
  (romReadLut (a ++ b ++ a' ++ b')).toInt

/-- The steps of a turn from the reading AB = `a`, `b`, summed. -/
def turnSum (a b : Level) : List Reading → Int
  | [] => 0
  | r :: rs => turnStep a b r.a r.b + turnSum r.a r.b rs

/-- Mode `m` follows clean turns, an emission standing for `weight` steps. `place` says where a state stands: at which
reading AB, and how many steps it has seen beyond those it has emitted. An accepted trigger by a reading that differs in
exactly one pin completes, and its step is added to those steps while its emission is taken off. -/
def FollowsTurns (m : Mode) (weight : Int) (place : State → Option (BitVec 2 × Int)) : Prop :=
  ∀ (k : EdgeKind) (a b a' b' : Level) (x : Int) (s : State), s.accepts (.edge k) = true → place s = some (a ++ b, x) →
    ((a' == a) != (b' == b)) = true →
      ∃ t, exec (edgeInstr k m (ofPort a') (ofPort b')) s = .next t ∧
        place t = some (a' ++ b', x + turnStep a b a' b' - weight * t.lastDir.toInt)

/-- After a clean turn a mode that follows turns stands at the last reading, with the steps of the whole turn added and the
emissions of the whole turn taken off. -/
theorem FollowsTurns.place_after {m : Mode} {weight : Int} {place : State → Option (BitVec 2 × Int)}
    (h : FollowsTurns m weight place) {rs : List Reading} {a b : Level} {x : Int} {s : State}
    (ha : ∀ k, s.accepts (.edge k) = true) (hplace : place s = some (a ++ b, x)) (hclean : cleanTurn a b rs = true) :
    ∃ t, place t = some ((lastReading a b rs).1 ++ (lastReading a b rs).2,
      x + turnSum a b rs - weight * emittedSum (triggers m rs) s) := by
  induction rs generalizing a b x s with
  | nil => exact ⟨s, by simpa [turnSum, triggers, emittedSum, emissions, lastReading] using hplace⟩
  | cons r rs ih =>
    rw [cleanTurn, Bool.and_eq_true] at hclean
    obtain ⟨hstep, hrest⟩ := hclean
    obtain ⟨u, hexec, hu⟩ := h r.kind a b r.a r.b x s (ha r.kind) hplace hstep
    obtain ⟨t, ht⟩ := ih (fun k => (accepts_of_exec_edgeInstr hexec _).trans (ha k)) hu hrest
    refine ⟨t, ht.trans ?_⟩
    rw [triggers_cons, emittedSum_cons (ha r.kind) hexec, turnSum, lastReading]
    congr 2
    ring

/-- Where no steps are pending at the end of a turn that began with none pending, the emissions account for the whole turn. -/
theorem FollowsTurns.turnSum_eq {m : Mode} {weight : Int} {place : State → Option (BitVec 2 × Int)}
    (h : FollowsTurns m weight place) {rs : List Reading} {a b : Level} {s : State} (ha : ∀ k, s.accepts (.edge k) = true)
    (hplace : place s = some (a ++ b, 0)) (hclean : cleanTurn a b rs = true)
    (hend : ∀ (t : State) (x : Int), place t = some ((lastReading a b rs).1 ++ (lastReading a b rs).2, x) → x = 0) :
    turnSum a b rs = weight * emittedSum (triggers m rs) s := by
  obtain ⟨t, ht⟩ := h.place_after ha hplace hclean
  have hzero := hend t _ ht
  omega

/-! The three table modes follow clean turns (R78, R83, R88). -/

/-- A LookupTable state stands at the reading in `abAB[1:0]` and has emitted every step (R48, R78). -/
def lutPlace (s : State) : Option (BitVec 2 × Int) :=
  some (s.abAB.extractLsb' 0 2, 0)

/-- In LookupTable no steps are ever pending (R78). -/
theorem lutPlace_pending {s : State} {c : BitVec 2} {x : Int} (h : lutPlace s = some (c, x)) : x = 0 := by
  cases h; rfl

/-- A LookupTable emission is the step itself: the trigger reads `LUT` at the two readings (R75, R78). -/
theorem followsTurns_lookupTable : FollowsTurns .lookupTable 1 lutPlace := by
  have hlast : ∀ a b a' b' : Level, (a ++ b ++ a' ++ b').extractLsb' 0 2 = a' ++ b' := by decide
  intro k a b a' b' x s ha hplace _
  rw [lutPlace, Option.some.injEq, Prod.mk.injEq] at hplace
  obtain ⟨hcur, rfl⟩ := hplace
  have hidx : lookupIndex s.abAB (normLevel (ofPort a')) (normLevel (ofPort b')) = a ++ b ++ a' ++ b' := by
    rw [normLevel_ofPort, normLevel_ofPort, lookupIndex, hcur]
  refine ⟨_, exec_lookupTable_of_accepts ha hidx, ?_⟩
  rw [lutPlace, hlast, turnStep]
  simp

/-- In a mode with a transition table the row says where a state stands. -/
def rowPlace (places : List (BitVec 2 × Int)) (s : State) : Option (BitVec 2 × Int) :=
  places[s.tstate.toNat]?

/-- Entry by entry, a table moves its rows along a clean turn as `FollowsTurns` asks. -/
def TableFollowsTurns (read : BitVec 4 → BitVec 2 → Option (BitVec 8)) (places : List (BitVec 2 × Int)) (weight : Int) :
    Prop :=
  ∀ (r : BitVec 4) (a b a' b' : Level), ((a' == a) != (b' == b)) = true →
    ∀ p ∈ places[r.toNat]?, p.1 = a ++ b → ∃ e ∈ read r (columnIndex a' b'),
      places[(entryNextRow e).toNat]? =
        some (a' ++ b', p.2 + turnStep a b a' b' - weight * (entryDirection e).toInt)

/-- A mode follows clean turns when its table does. -/
theorem ReadsTable.followsTurns {m : Mode} {read : BitVec 4 → BitVec 2 → Option (BitVec 8)}
    {places : List (BitVec 2 × Int)} {weight : Int} (h : ReadsTable m read) (htable : TableFollowsTurns read places weight) :
    FollowsTurns m weight (rowPlace places) := by
  intro k a b a' b' x s ha hplace hstep
  obtain ⟨e, he, hnext⟩ := htable s.tstate a b a' b' hstep _ hplace rfl
  have hrun : runMode m (ofPort a') (ofPort b') s = some (entryDirection e, s.setTstate (entryNextRow e)) := by
    rw [h, normLevel_ofPort, normLevel_ofPort, he, Option.map_some]
  exact ⟨_, exec_edgeInstr_of_setTstate ha hrun, hnext⟩

/-- The rows of `HS`: 0 and 3 are the rest rows at AB = 11 and 00, and each of the others is one step from one of them
(R82, R83). -/
def hsPlaces : List (BitVec 2 × Int) :=
  [(0b11, 0), (0b10, -1), (0b01, 1), (0b00, 0), (0b10, 1), (0b01, -1)]

/-- The rows of `FS`: 0 is the rest row at AB = 11, the rows 2, 3, 1 follow it on the +1 path and the rows 4, 6, 5 on the
-1 path (R87, R88). -/
def fsPlaces : List (BitVec 2 × Int) :=
  [(0b11, 0), (0b10, 3), (0b01, 1), (0b00, 2), (0b10, -1), (0b01, -3), (0b00, -2)]

/-- Every entry of `HS` on a clean turn, a HalfStep emission standing for two steps (R83). -/
theorem tableFollowsTurns_hs : TableFollowsTurns romReadHs hsPlaces 2 := by
  unfold TableFollowsTurns
  decide

/-- Every entry of `FS` on a clean turn, a FullStep emission standing for four steps (R88). -/
theorem tableFollowsTurns_fs : TableFollowsTurns romReadFs fsPlaces 4 := by
  unfold TableFollowsTurns
  decide

/-- Two steps of a clean turn make one HalfStep emission (R83). -/
theorem followsTurns_halfStep : FollowsTurns .halfStep 2 (rowPlace hsPlaces) :=
  readsTable_halfStep.followsTurns tableFollowsTurns_hs

/-- Four steps of a clean turn make one FullStep emission (R88). -/
theorem followsTurns_fullStep : FollowsTurns .fullStep 4 (rowPlace fsPlaces) :=
  readsTable_fullStep.followsTurns tableFollowsTurns_fs

/-- Where every row at the reading `c` is a rest row, no steps are pending there. -/
theorem rowPlace_rest {places : List (BitVec 2 × Int)} {c : BitVec 2} (hrest : ∀ p ∈ places, p.1 = c → p.2 = 0) {s : State}
    {x : Int} (h : rowPlace places s = some (c, x)) : x = 0 :=
  hrest _ (List.mem_of_getElem? h) rfl

/-! The statements. -/

/-- Settles O24: in both tables every entry of the column names the same row. -/
theorem restReadingsResynchronise : Obligations.RestReadingsResynchronise := by
  intro k a b s t hp hen
  have ha : s.accepts (.edge k) = true := (s.accepts_iff _).2 ⟨hp, hen⟩
  refine ⟨fun h hna hnb => ?_, fun h hha hhb => ?_, fun h hha hhb => ?_⟩
  · exact readsTable_halfStep.tstate_of_column (by decide) ha (columnIndex_of_not_high hna hnb) h
  · exact readsTable_halfStep.tstate_of_column (by decide) ha (columnIndex_of_high hha hhb) h
  · exact readsTable_fullStep.tstate_of_column (by decide) ha (columnIndex_of_high hha hhb) h

/-- Settles O27: LookupTable emits every step of the turn; HalfStep has emitted half of them whenever the turn stands at 11
or 00, and FullStep a quarter of them whenever it stands at 11. -/
theorem cleanTurnsAgreeAcrossModes : Obligations.CleanTurnsAgreeAcrossModes := by
  intro rs lu hs fs hluInv hhsInv hfsInv hluOn hhsOn hfsOn hluMode hhsMode hfsMode hluAt hhsAt hfsAt hclean
  have hLu : turnSum 1 1 rs = 1 * emittedSum (triggers .lookupTable rs) lu :=
    followsTurns_lookupTable.turnSum_eq (hluInv.accepts_edge hluOn (by rw [hluMode]; decide)) (by rw [lutPlace, hluAt]; rfl)
      hclean fun _ _ ht => lutPlace_pending ht
  have hHs (hend : lastReading 1 1 rs = (1, 1) ∨ lastReading 1 1 rs = (0, 0)) :
      turnSum 1 1 rs = 2 * emittedSum (triggers .halfStep rs) hs := by
    refine followsTurns_halfStep.turnSum_eq (hhsInv.accepts_edge hhsOn (by rw [hhsMode]; decide))
      (by rw [rowPlace, hhsAt]; rfl) hclean fun t x ht => ?_
    obtain hend | hend := hend
    · rw [hend] at ht
      exact rowPlace_rest (by decide) ht
    · rw [hend] at ht
      exact rowPlace_rest (by decide) ht
  have hFs (hend : lastReading 1 1 rs = (1, 1)) : turnSum 1 1 rs = 4 * emittedSum (triggers .fullStep rs) fs := by
    refine followsTurns_fullStep.turnSum_eq (hfsInv.accepts_edge hfsOn (by rw [hfsMode]; decide))
      (by rw [rowPlace, hfsAt]; rfl) hclean fun t x ht => ?_
    rw [hend] at ht
    exact rowPlace_rest (by decide) ht
  rw [one_mul] at hLu
  rw [← hLu]
  exact ⟨fun hend => ⟨hHs (.inl hend), hFs hend⟩, fun hend => hHs (.inr hend)⟩

/-- Settles O44: every register of `State.reset` is written out as 0, and the codes of IDLE, SingleEdge and direction 0
are 0. -/
theorem powerOnRegistersAreZero : Obligations.PowerOnRegistersAreZero := by
  unfold Obligations.PowerOnRegistersAreZero
  decide

end Sys2Proof.Machine
end
